-- ==== Sys2Proof/Word.lean ====
section
/-! DEFINITION. The word types of the SC-GW radio core: bytes and counters (rules R7, R37). A microsecond time,
`uW` of rules R7 and R40, is a number: its width `W` is a parameter of the block (rule R6), and every operation that stores a time
keeps it below `2^W` (rules R8, R9; log entry 1). -/

namespace Sys2Proof

/-- `u8` of rule R7: every chip register, and every register of the block without a stated width, has 8 bits. -/
abbrev Byte := BitVec 8

/-- A statistics counter, a u32 (rule R37). -/
abbrev Counter := BitVec 32

end Sys2Proof
end

