-- ==== Sys2Proof/Syntax.lean ====
section
/-! DEFINITION. The operations of the SC-GW radio core as syntax: one constructor of `Instr` for each of the 66 rows of
spec/opcode_table.json (3 SPI, 30 OP, 33 EVAL), their operands, and the frames that carry them (rules R90, R95, R96). -/

namespace Sys2Proof

/-- The operating modes of the chip, in the order of SET_OPMODE's name index (rule R98). -/
inductive Mode where
  | sleep | standby | fstx | tx | fsrx | rxCont | rxSingle | cad
deriving DecidableEq, Repr, Inhabited

/-- The listening kinds of SET_DIO_MAP (rules R99, R156). -/
inductive DioKind where
  | cad | rx | tx
deriving DecidableEq, Repr, Inhabited

/-- The operand record of SUBMIT_TX, an OutboundRequest (rules R36, R302). Its `len` is the number of payload bytes. -/
structure OutboundRequest where
  payload : List Byte
  target : Nat
  sf : Byte
  /-- s8: the requested power, read as two's complement (rules R36, R106). -/
  power : Byte
  freq : BitVec 32
  crc : Bool
  iq : Bool
deriving DecidableEq, Repr, Inhabited

/-- The operand record of CONFIGURE and of RESET (`Cfg0`), as the collaborator supplies it: not yet checked
(rules R26, R305). The rules give its fields no widths: 8 bits for `sf`, `hop` and `cad` and none for `ch` are the model's
choice (DESIGN CHOICE, log entry 22). -/
structure CfgRecord where
  sf : Byte
  hop : Byte
  cad : Byte
  ch : Nat
deriving DecidableEq, Repr, Inhabited

/-- The operations of the block: one constructor per row of the opcode table. A row of format EVAL carries the 16-bit
evaluation key it was selected by (rule R95). -/
inductive Instr where
  -- format SPI (rules R130 to R132)
  | spiRead (a : Byte)
  | spiWrite (a : Byte) (v : Byte)
  | spiBurstWrite (a : Byte) (data : List Byte)
  -- format OP, modem configuration (rules R140 to R158)
  | setFrequency (hz : BitVec 32)
  | setRate (crc : Bool) (sf : Byte)
  | setPower (p : Byte)
  | setOpmode (m : Mode)
  | setIq (invert : Bool)
  | clearIrq (bits : Byte)
  | setIrqMask (mask : Byte)
  | setDioMap (k : DioKind)
  | checkChipId
  -- format OP, hop controller (rule R170)
  | advanceChannel
  -- format OP, state machine (rules R190 to R207, R372)
  | evalPass
  | armScanner
  | armRxSingle
  | armRxCont
  | armListen
  | keyTx
  | recover
  | restart
  | forceScan
  | bringup
  -- format OP, scheduler and packet assembly (rules R280, R310)
  | waitUntil (target : Nat) (sf : Byte)
  | capturePacket
  -- format OP, the external interface (rules R300 to R309, R370)
  | irqEdge (line : BitVec 2)
  | submitTx (req : OutboundRequest)
  | takePacket
  | readStats
  | configure (cfg : CfgRecord)
  | readState
  | reset (cfg0 : CfgRecord)
  | clockAdvance (d : Nat)
  -- format EVAL (rules R231 to R268)
  | evInit (key : BitVec 16)
  | evScanDetect (key : BitVec 16)
  | evScanPromote (key : BitVec 16)
  | evScanDoneHop (key : BitVec 16)
  | evScanStay (key : BitVec 16)
  | evScanTxreq (key : BitVec 16)
  | evScanSofthop (key : BitVec 16)
  | evScanIdle (key : BitVec 16)
  | evScanUnexpected (key : BitVec 16)
  | evCadDetect (key : BitVec 16)
  | evCadNextSf (key : BitVec 16)
  | evCadExhausted (key : BitVec 16)
  | evCadTxreq (key : BitVec 16)
  | evCadSofthop (key : BitVec 16)
  | evCadIdle (key : BitVec 16)
  | evCadUnexpected (key : BitVec 16)
  | evRxCrcerr (key : BitVec 16)
  | evRxHdrinv (key : BitVec 16)
  | evRxDone (key : BitVec 16)
  | evRxTimeoutHop (key : BitVec 16)
  | evRxTimeout (key : BitVec 16)
  | evRxHdrseen (key : BitVec 16)
  | evRxTxreq (key : BitVec 16)
  | evRxSofttmo (key : BitVec 16)
  | evRxIdle (key : BitVec 16)
  | evRxUnexpected (key : BitVec 16)
  | evTxRun (key : BitVec 16)
  | evTxNoreq (key : BitVec 16)
  | evTxdDone (key : BitVec 16)
  | evTxdTimeout (key : BitVec 16)
  | evTxdWait (key : BitVec 16)
  | evTxdUnexpected (key : BitVec 16)
  | evDefault (key : BitVec 16)
deriving DecidableEq, Repr

/-- The operand record that travels beside an operation word (rules R96, R100). -/
inductive OperandRecord where
  | empty
  /-- SET_FREQUENCY's `hz`. -/
  | hz (v : BitVec 32)
  /-- SET_RATE's `sf`. -/
  | rate (sf : Byte)
  /-- SET_POWER's `p`. -/
  | power (p : Byte)
  /-- WAIT_UNTIL's `target`, `sf`. -/
  | wait (target : Nat) (sf : Byte)
  /-- SUBMIT_TX's OutboundRequest. -/
  | request (r : OutboundRequest)
  /-- CONFIGURE's record and RESET's `Cfg0`. -/
  | config (c : CfgRecord)
  /-- CLOCK_ADVANCE's `d`. -/
  | tick (d : Nat)
deriving DecidableEq, Repr

/-- What the block is given to decode: an operation word with its record (rule R96), an evaluation key (rule R95), or
the bytes of one bus transaction (rule R90). A burst is told from a single write by the operation that issues it, not by
its bits (rule R91), hence the flag. -/
inductive Frame where
  | op (word : BitVec 16) (record : OperandRecord)
  | eval (key : BitVec 16)
  | spi (burst : Bool) (bytes : List Byte)
deriving DecidableEq, Repr

end Sys2Proof
end

