-- ==== Sys2Proof/Config.lean ====
section
/-! DEFINITION. The parameters of the block (rule R6): their types, with each well-formedness condition that the spec puts on
a parameter built into its type (rules R31, R97, R98, R145), the constants the spec fixes, and the opaque constants that
stand for every value no source gives. -/

namespace Sys2Proof

/-- The chip family (rules R2, R6). -/
inductive ChipVariant where
  | a | b
deriving DecidableEq, Repr, Inhabited

/-- A value for each chip family. -/
structure PerVariant (α : Type) where
  a : α
  b : α
deriving DecidableEq, Repr

/-- A value for each spreading factor 7 to 12. `other` is the value for a number outside 7..12, where the spec defines
none: it is one more free value, and no state that a run reaches reads it (log entry 7). -/
structure PerSf (α : Type) where
  sf7 : α
  sf8 : α
  sf9 : α
  sf10 : α
  sf11 : α
  sf12 : α
  other : α
deriving DecidableEq, Repr

/-- The seven values of a table by spreading factor. -/
def PerSf.values {α : Type} (t : PerSf α) : List α := [t.sf7, t.sf8, t.sf9, t.sf10, t.sf11, t.sf12, t.other]

/-- The rate registers of `RateTable(v, sf, crc)` but for the SF nibble `mc2[7:4]`, which is `sf` (rule R142). -/
structure Rate where
  mc1 : Byte
  mc2Low : BitVec 4
  mc3 : Byte
deriving DecidableEq, Repr, Inhabited

/-- `SnrRounding` (rule R311). -/
inductive SnrRounding where
  | floor | trunc
deriving DecidableEq, Repr, Inhabited

/-- An entry of the channel plan (rules R28, R29), with rule R31's conditions on it: SFs in 7..12 and in order, and an
uplink frequency whose word fits 24 bits. -/
structure PlanEntry where
  uplinkFrequencyHz : BitVec 32
  /-- A bandwidth is an opaque code that no rule reads (rule R29). -/
  uplinkBandwidth : Nat
  minSF : BitVec 4
  maxSF : BitVec 4
  downlinkFrequencyHz : BitVec 32
  downlinkBandwidth : Nat
  downlinkMinSF : BitVec 4
  downlinkMaxSF : BitVec 4
  sfOrdered : 7 ≤ minSF.toNat ∧ minSF.toNat ≤ maxSF.toNat ∧ maxSF.toNat ≤ 12
  wordFits : uplinkFrequencyHz.toNat * 2 ^ 19 / 32000000 < 2 ^ 24
deriving DecidableEq, Repr

/-- The channel plan (rule R28): at least one entry (rule R31). -/
structure Plan where
  entries : List PlanEntry
  nonempty : 0 < entries.length
  /-- What a read at an index outside `0 .. N-1` gives. The spec defines no such read and no rule makes one in a state that
  a run reaches past a successful bring-up: a free value (log entry 7). -/
  outside : PlanEntry
deriving DecidableEq, Repr

/-- The chip registers that the block touches, in the order of rule R97. -/
inductive Reg where
  | fifo | opMode | frfMsb | frfMid | frfLsb | paConfig | fifoAddrPtr | fifoRxCurrentAddr | irqFlagsMask | irqFlags
  | rxNbBytes | pktSnrValue | pktRssiValue | rssiValue | modemConfig1 | modemConfig2 | symbTimeoutLsb | payloadLength
  | modemConfig3 | invertIq | dioMapping1 | version
deriving DecidableEq, Repr

/-- `RegAddr`: a 7-bit address for each register, all distinct (rule R97). -/
structure RegMap where
  fifo : BitVec 7
  opMode : BitVec 7
  frfMsb : BitVec 7
  frfMid : BitVec 7
  frfLsb : BitVec 7
  paConfig : BitVec 7
  fifoAddrPtr : BitVec 7
  fifoRxCurrentAddr : BitVec 7
  irqFlagsMask : BitVec 7
  irqFlags : BitVec 7
  rxNbBytes : BitVec 7
  pktSnrValue : BitVec 7
  pktRssiValue : BitVec 7
  rssiValue : BitVec 7
  modemConfig1 : BitVec 7
  modemConfig2 : BitVec 7
  symbTimeoutLsb : BitVec 7
  payloadLength : BitVec 7
  modemConfig3 : BitVec 7
  invertIq : BitVec 7
  dioMapping1 : BitVec 7
  version : BitVec 7
  distinct : [fifo, opMode, frfMsb, frfMid, frfLsb, paConfig, fifoAddrPtr, fifoRxCurrentAddr, irqFlagsMask, irqFlags,
    rxNbBytes, pktSnrValue, pktRssiValue, rssiValue, modemConfig1, modemConfig2, symbTimeoutLsb, payloadLength,
    modemConfig3, invertIq, dioMapping1, version].Nodup
deriving DecidableEq, Repr

/-- `ModeCode`, `ModeMask` and `LoRaModeBit` (rule R98). Every code fits the mask (rule R150), and the LoRa-mode flag is among
the bits outside it, which SET_OPMODE preserves (rule R98). -/
structure ModeMap where
  mask : Byte
  loraBit : Byte
  sleep : Byte
  standby : Byte
  fstx : Byte
  tx : Byte
  fsrx : Byte
  rxCont : Byte
  rxSingle : Byte
  cad : Byte
  codesFit : [sleep, standby, fstx, tx, fsrx, rxCont, rxSingle, cad].all (fun c => c &&& ~~~mask == 0) = true
  loraKept : loraBit &&& mask = 0
deriving DecidableEq, Repr

/-- `DioMap(k)` (rule R99). -/
structure DioMap where
  cad : Byte
  rx : Byte
  tx : Byte
deriving DecidableEq, Repr

/-- The parameters of rule R6 that a claim must hold for every value of, or that have a default only. They are fixed for a
run: no operation changes them. -/
structure Params where
  variant : ChipVariant
  /-- `W`, the width in bits of the clock and of every timestamp (rules R6, R40). -/
  timeBits : Nat
  plan : Plan
  regs : RegMap
  modes : ModeMap
  dioMap : DioMap
  expectedChipId : PerVariant Byte
  /-- In raw RSSI register units, an integer (rule R173). -/
  rssiThreshold : Int
  /-- `DoneWait(SCAN, sf)` and `DoneWait(CAD, sf)`, in µs (rule R176). -/
  doneWaitScan : PerSf Nat
  doneWaitCad : PerSf Nat
  /-- `EventWait(sf)`, in µs (rule R177). -/
  eventWait : PerSf Nat
  /-- `TxDelay` and `Sf7Extra`, in µs (rule R282). -/
  txDelay : Nat
  sf7Extra : Nat
  /-- `CoarseThreshold`, in whole µs (rule R284; log entry 25). -/
  coarseThreshold : Nat
  dropOnMiss : Bool
  /-- `MaxTxLen`: the transmit length register has 8 bits (rule R61), so at most 255 (log entry 2). -/
  maxTxLen : Byte
  /-- `RateTable(v, sf, crc)`: with crc 0, with crc 1. -/
  rateNoCrc : PerVariant (PerSf Rate)
  rateCrc : PerVariant (PerSf Rate)
  /-- `SymbTimeout(v, long)`: short, long (rule R144). -/
  symbTimeoutShort : PerVariant Byte
  symbTimeoutLong : PerVariant Byte
  /-- `PaHighBits(v)[7:4]`; its bits [3:0] are 0 (rule R145). -/
  paHighNibble : PerVariant (BitVec 4)
  /-- `IqValue(v, invert)` (rule R152). -/
  iqNormal : PerVariant Byte
  iqInverted : PerVariant Byte
  txFifoBase : Byte
  rxCrcFlag : Bool
  requireValidHeader : Bool
  snrRounding : SnrRounding
  /-- `NumIrqLines` is 3 and not 2 (rules R6, R94). -/
  threeIrqLines : Bool
  /-- `InitWrites(v)`: single writes to 7-bit addresses (rule R372). -/
  initWrites : PerVariant (List (BitVec 7 × Byte))
  /-- Parameters that no rule reads (rules R133, R283, R286). That the times are whole microseconds and that `SpiMode` is one of
  the modes 0 to 3 is the model's choice (DESIGN CHOICE, log entry 25). -/
  tCss : Nat
  tCsh : Nat
  tCsi : Nat
  spiMode : BitVec 2
  txLateBound : Nat
  txBrokenVariant : ChipVariant
  timeBitsPos : 0 < timeBits
  /-- `DoneWait` and `EventWait` are in `0 .. 2^W − 1` (rules R176, R177). -/
  waitsFit : (doneWaitScan.values ++ doneWaitCad.values ++ eventWait.values).all (fun t => t < 2 ^ timeBits) = true
  /-- `TxDelay` and `Sf7Extra` are in `0 .. 2^(W−1) − 1` (rule R282). -/
  delaysFit : txDelay < 2 ^ (timeBits - 1) ∧ sf7Extra < 2 ^ (timeBits - 1)
deriving DecidableEq, Repr

namespace Config

/-! ## Constants the spec fixes (rule R6) -/

/-- `HopRssiAdjust` (rule R173). -/
def hopRssiAdjust : Int := 7

/-- `MaxRxPayload` (rule R315). -/
def maxRxPayload : Nat := 128

/-- `TxDoneTimeout`, 7 seconds in µs (rule R178). -/
def txDoneTimeout : Nat := 7000000

/-! ## Open parameters: opaque constants, of which nothing can be proved but what their types say (rule R6, "OPEN";
log entries 5 and 6) -/

/-- The free choices behind a plan entry: any well-formed entry of rule R31 comes from one of these. -/
structure RawEntry where
  uplinkFrequency : BitVec 32
  uplinkBandwidth : Nat
  minOffset : Fin 6
  span : Fin 6
  downlinkFrequency : BitVec 32
  downlinkBandwidth : Nat
  downlinkMin : BitVec 4
  downlinkMax : BitVec 4
deriving Inhabited

opaque planFirst : RawEntry
opaque planRest : List RawEntry
opaque planOutside : RawEntry
opaque variant : ChipVariant
opaque expectedChipId : ChipVariant → Byte
opaque rssiThreshold : Int
opaque doneWaitScan : Nat → Nat
opaque doneWaitCad : Nat → Nat
opaque eventWait : Nat → Nat
opaque txDelay : Nat
opaque sf7Extra : Nat
opaque rateTable : ChipVariant → Bool → Nat → Rate
opaque symbTimeout : ChipVariant → Bool → Byte
opaque paHighNibble : ChipVariant → BitVec 4
opaque iqValue : ChipVariant → Bool → Byte
opaque txFifoBase : Byte
opaque rxCrcFlag : Bool
opaque threeIrqLines : Bool
opaque initWrites : ChipVariant → List (BitVec 7 × Byte)
opaque chipSelectTiming : Nat → Nat
opaque txLateBound : Nat
opaque txBrokenVariant : ChipVariant

/-- `Cfg0` at power-on, the configuration that the collaborator supplies at start (rules R26, R370). -/
opaque cfg0 : CfgRecord

/-- The clock at power-on, "unspecified (a draw)" (rule R40). -/
opaque powerOnClock : Nat

/-! ## Free values -/

/-- The chip's answer to the n-th read that no queued answer serves: a free draw (rule R66). -/
opaque chipDraw : Nat → Byte

/-- The value of field number `i` that the n-th reset leaves unspecified (rule R371; 93_implementation_defined.md I19). -/
opaque unspecified : Nat → Nat → Nat

end Config

end Sys2Proof
end

