-- ==== Sys2Proof/Machine/Params.lean ====
section
/-! DEFINITION. The parameter values at power-on (rule R6): the spec's default where a parameter has one, an opaque constant
of Config where it has none. A state may hold any other values: every operation reads them from the state. -/

namespace Sys2Proof.Machine

open Sys2Proof

/-- A bounded frequency keeps its word within 24 bits (rule R31). -/
theorem boundedFrequency_wordFits (f : BitVec 32) :
    (BitVec.ofNat 32 (f.toNat % 1024000000)).toNat * 2 ^ 19 / 32000000 < 2 ^ 24 := by
  have h : f.toNat % 1024000000 < 1024000000 := Nat.mod_lt _ (by decide)
  rw [BitVec.toNat_ofNat, Nat.mod_eq_of_lt (by omega)]
  omega

/-- The SF bounds built from a minimum offset and a span are in order and within 7..12 (rule R31). -/
theorem spannedSf_ordered (lo span : Fin 6) :
    7 ≤ (BitVec.ofNat 4 (7 + lo.val)).toNat ∧
      (BitVec.ofNat 4 (7 + lo.val)).toNat ≤ (BitVec.ofNat 4 (min 12 (7 + lo.val + span.val))).toNat ∧
      (BitVec.ofNat 4 (min 12 (7 + lo.val + span.val))).toNat ≤ 12 := by
  have h1 := lo.isLt
  have h2 := span.isLt
  simp only [BitVec.toNat_ofNat]
  omega

/-- The plan entry of the free choices: every entry that rule R31 admits is one of these. -/
def planEntry (r : Config.RawEntry) : PlanEntry where
  uplinkFrequencyHz := BitVec.ofNat 32 (r.uplinkFrequency.toNat % 1024000000)
  uplinkBandwidth := r.uplinkBandwidth
  minSF := BitVec.ofNat 4 (7 + r.minOffset.val)
  maxSF := BitVec.ofNat 4 (min 12 (7 + r.minOffset.val + r.span.val))
  downlinkFrequencyHz := r.downlinkFrequency
  downlinkBandwidth := r.downlinkBandwidth
  downlinkMinSF := r.downlinkMin
  downlinkMaxSF := r.downlinkMax
  sfOrdered := spannedSf_ordered r.minOffset r.span
  wordFits := boundedFrequency_wordFits r.uplinkFrequency

/-- The plan at power-on: a first entry, so `N ≥ 1`, and any others (rule R31). -/
def powerOnPlan : Plan where
  entries := planEntry Config.planFirst :: Config.planRest.map planEntry
  nonempty := by simp
  outside := planEntry Config.planOutside

/-- The default register addresses (rule R97). -/
def defaultRegMap : RegMap where
  fifo := 0x00
  opMode := 0x01
  frfMsb := 0x06
  frfMid := 0x07
  frfLsb := 0x08
  paConfig := 0x09
  fifoAddrPtr := 0x0D
  fifoRxCurrentAddr := 0x10
  irqFlagsMask := 0x11
  irqFlags := 0x12
  rxNbBytes := 0x13
  pktSnrValue := 0x19
  pktRssiValue := 0x1A
  rssiValue := 0x1B
  modemConfig1 := 0x1D
  modemConfig2 := 0x1E
  symbTimeoutLsb := 0x1F
  payloadLength := 0x22
  modemConfig3 := 0x26
  invertIq := 0x33
  dioMapping1 := 0x40
  version := 0x42
  distinct := by decide

/-- The default mode codes, mask and LoRa-mode bit (rule R98). -/
def defaultModeMap : ModeMap where
  mask := 0x07
  loraBit := 0x80
  sleep := 0
  standby := 1
  fstx := 2
  tx := 3
  fsrx := 4
  rxCont := 5
  rxSingle := 6
  cad := 7
  codesFit := by decide
  loraKept := by decide

/-- The default interrupt-mapping values (rule R99). -/
def defaultDioMap : DioMap where
  cad := 0xA0
  rx := 0x00
  tx := 0x40

/-- A value for each family, from a function. -/
def perVariant {α : Type} (f : ChipVariant → α) : PerVariant α := ⟨f .a, f .b⟩

/-- A value for each SF, from a function. -/
def perSf {α : Type} (f : Nat → α) : PerSf α := ⟨f 7, f 8, f 9, f 10, f 11, f 12, f 0⟩

/-- `W` at power-on, the default of rule R6 (log entry 6). -/
def defaultTimeBits : Nat := 32

/-- The values of a table that is cut to `b` are below `b`. -/
theorem perSf_values_lt (f : Nat → Nat) (b : Nat) (h : 0 < b) :
    (perSf fun n => f n % b).values.all (fun t => t < b) = true := by
  simp [perSf, PerSf.values, Nat.mod_lt _ h]

/-- The parameters at power-on (rule R6; log entries 5 and 6). -/
def powerOnParams : Params where
  variant := Config.variant
  timeBits := defaultTimeBits
  plan := powerOnPlan
  regs := defaultRegMap
  modes := defaultModeMap
  dioMap := defaultDioMap
  expectedChipId := perVariant Config.expectedChipId
  rssiThreshold := Config.rssiThreshold
  doneWaitScan := perSf fun n => Config.doneWaitScan n % 2 ^ defaultTimeBits
  doneWaitCad := perSf fun n => Config.doneWaitCad n % 2 ^ defaultTimeBits
  eventWait := perSf fun n => Config.eventWait n % 2 ^ defaultTimeBits
  txDelay := Config.txDelay % 2 ^ (defaultTimeBits - 1)
  sf7Extra := Config.sf7Extra % 2 ^ (defaultTimeBits - 1)
  coarseThreshold := 16000
  dropOnMiss := false
  maxTxLen := 255
  rateNoCrc := perVariant fun v => perSf (Config.rateTable v false)
  rateCrc := perVariant fun v => perSf (Config.rateTable v true)
  symbTimeoutShort := perVariant fun v => Config.symbTimeout v false
  symbTimeoutLong := perVariant fun v => Config.symbTimeout v true
  paHighNibble := perVariant Config.paHighNibble
  iqNormal := perVariant fun v => Config.iqValue v false
  iqInverted := perVariant fun v => Config.iqValue v true
  txFifoBase := Config.txFifoBase
  rxCrcFlag := Config.rxCrcFlag
  requireValidHeader := true
  snrRounding := .floor
  threeIrqLines := Config.threeIrqLines
  initWrites := perVariant Config.initWrites
  tCss := Config.chipSelectTiming 0
  tCsh := Config.chipSelectTiming 1
  tCsi := Config.chipSelectTiming 2
  spiMode := 0
  txLateBound := Config.txLateBound
  txBrokenVariant := Config.txBrokenVariant
  timeBitsPos := by decide
  waitsFit := by
    simp only [List.all_append, perSf_values_lt _ _ (Nat.two_pow_pos defaultTimeBits), Bool.and_self]
  delaysFit := ⟨Nat.mod_lt _ (Nat.two_pow_pos _), Nat.mod_lt _ (Nat.two_pow_pos _)⟩

/-! ## Widths that depend on a parameter -/

/-- The width of a channel index: `ceil(log2 N)` bits, and at least 1 (rule R25). -/
def indexBits (n : Nat) : Nat := if n ≤ 2 then 1 else Nat.log2 (n - 1) + 1

/-- An index cut to the width of the index registers: its low bits (rules R8, R25; log entry 14). -/
def cutIndex (n i : Nat) : Nat := i % 2 ^ indexBits n

end Sys2Proof.Machine

namespace Sys2Proof

/-! ## Times of W bits -/

/-- A number cut to the width of the clock: `trunc_W` (rules R8, R40). -/
def Params.truncTime (par : Params) (t : Nat) : Nat := t % 2 ^ par.timeBits

/-- `a -_W b = (a − b) mod 2^W` (rule R9). -/
def Params.subTime (par : Params) (a b : Nat) : Nat := (a + (2 ^ par.timeBits - b % 2 ^ par.timeBits)) % 2 ^ par.timeBits

/-- `signed_W(d)`: a time read as a W-bit two's-complement value (rule R9). -/
def Params.signedTime (par : Params) (d : Nat) : Int :=
  if d < 2 ^ (par.timeBits - 1) then (d : Int) else (d : Int) - 2 ^ par.timeBits

end Sys2Proof
end

