-- ==== Sys2Proof/Machine/State.lean ====
section
/-! DEFINITION. The state of the block as plain data (10_state.md), the reasons a step could stop, and the state right after
reset (rules R42, R371). -/

namespace Sys2Proof.Machine

open Sys2Proof

/-! ## Outcomes that stop the machine -/

/-- The faults that stop the machine: none. Rule R346's model faults do not stop it: they are recorded in `faults`, the state
stays otherwise as it was, and the other agents go on, so they are next states (log entry 8). Safe: nothing stops. -/
inductive Fault where
deriving DecidableEq, Repr

/-- The refusals that stop the machine. The spec's own refusal codes are results of an operation (rule R347), not these. -/
inductive Refusal where
  /-- Raised by an arm of `exec` whose instruction has no meaning yet; no arm is left. Safe: no claim follows from it. -/
  | notModelled (mnemonic : String)
deriving DecidableEq, Repr

/-! ## The data that the fields hold -/

/-- The five agents (rule R20). -/
inductive Agent where
  | fsmEngine | frontEnd | clock | host | chip
deriving DecidableEq, Repr

/-- `txPhase` (rule R36): no wait, a wait for the adjusted target `adj`, or a wait the clock has ended. -/
inductive TxPhase where
  | idle
  | waiting (adj : Nat)
  | released
deriving DecidableEq, Repr

/-- `modeShadow` (rule R39): a mode name or UNKNOWN. -/
inductive ModeShadow where
  | unknown
  | known (m : Mode)
deriving DecidableEq, Repr

/-- `waitPhase` of the state read (rules R284, R309). -/
inductive WaitPhase where
  | none | coarse | fine
deriving DecidableEq, Repr

/-- The model faults of rule R346. -/
inductive FaultName where
  | addrRange | emptyBurst | configActive | freqRange | cfg0Invalid
deriving DecidableEq, Repr

/-- The log codes E1 to E13 of rule R332. -/
inductive LogCode where
  | chipId | crcError | headerInvalid | rxTimeout | txdoneMissing | unexpectedIrq | payloadOversize | sfRange | txMissed
  | txBusy | configRejected | txInvalid | badOp
deriving DecidableEq, Repr

/-- An entry of the log (rule R345). `info` lists the values of the rule's record, in its order. -/
structure LogEntry where
  code : LogCode
  info : List Nat
  t : Nat
deriving DecidableEq, Repr

/-- The three transactions of the accessor (rules R130 to R132). -/
inductive SpiKind where
  | read | write | burst
deriving DecidableEq, Repr

/-- A bus transaction of the event history (rule R70). -/
structure SpiEvent where
  kind : SpiKind
  addr : Byte
  data : List Byte
deriving DecidableEq, Repr

/-- The inbound packet slot but for its valid bit (rule R35); also a packet as TAKE_PACKET hands it over (rule R303). -/
structure InPacket where
  payload : List Byte
  len : Nat
  rssi : Int
  snr : Int
  sf : BitVec 4
  ch : Nat
  time : Nat
deriving DecidableEq, Repr

/-- The outbound request slot but for its valid bit (rule R36). -/
structure OutSlot where
  payload : List Byte
  len : Byte
  target : Nat
  sf : Byte
  power : Byte
  freq : BitVec 32
  crc : Bool
  iq : Bool
deriving DecidableEq, Repr

/-- The statistics (rule R37): `okPerSf` lists the counters of SF 7 to 12, the per-channel lists those of 0 to N−1. -/
structure Stats where
  msgTotal : Counter
  msgOk : Counter
  msgSent : Counter
  okPerSf : List Counter
  okPerCh : List Counter
  sentPerCh : List Counter
deriving DecidableEq, Repr

/-- What READ_STATE returns (rule R309). -/
structure Snapshot where
  radioState : BitVec 3
  sf : BitVec 4
  ch : Nat
  cfgSF : BitVec 4
  cfgHop : Bool
  cfgCad : Bool
  cfgCh : Nat
  txPhase : TxPhase
  waitPhase : WaitPhase
  lastRssi : Byte
  halted : Bool
  inValid : Bool
  outValid : Bool
  modeShadow : ModeShadow
  faults : List FaultName
  log : List LogEntry
deriving DecidableEq, Repr

/-- The refusal codes of rule R347. -/
inductive RefuseCode where
  | badOp | internal | halted
deriving DecidableEq, Repr

/-- The result of an operation, as its rule's `return` gives it (rule R317 lists the external ones). -/
inductive OpResult where
  /-- No result: none yet, or an operation that returns nothing. -/
  | none
  | ok
  | fail
  | busy
  | invalid
  | rejected
  | empty
  | packet (p : InPacket)
  | stats (s : Stats)
  | snapshot (s : Snapshot)
  | byte (v : Byte)
  | missed (b : Bool)
  | refused (c : RefuseCode)
deriving DecidableEq, Repr

/-- One thing that happens next, in the schedule the outside world gives the machine (rules R20, R107; log entry 9). -/
inductive Input where
  /-- An agent presents a frame. -/
  | frame (by_ : Agent) (f : Frame)
  /-- The FSM engine takes the step that is enabled for it (rules R190, R283, R372). -/
  | engine
  /-- The chip has an answer ready for the next read of an address (rules R66, R107). -/
  | answer (addr v : Byte)
deriving DecidableEq, Repr

/-! ## The state -/

/-- The state of the machine. -/
@[ext]
structure State where
  -- the control point (rules R22, R23, R36)
  radioState : BitVec 3
  passActive : Bool
  booted : Bool
  txPhase : TxPhase
  -- the operating registers (rules R24, R25)
  sf : BitVec 4
  ch : Nat
  -- the configuration registers (rule R26), and `Cfg0` as RESET was given it
  cfgSF : BitVec 4
  cfgHop : Bool
  cfgCad : Bool
  cfgCh : Nat
  cfg0 : CfgRecord
  -- the event latch and the timers (rules R32, R33, R40)
  pending : Bool
  eventTime : Nat
  doneTime : Nat
  clock : Nat
  -- the capture and packet registers (rules R34 to R36)
  lastRssi : Byte
  inValid : Bool
  inbound : InPacket
  outValid : Bool
  outbound : OutSlot
  -- the statistics (rule R37)
  stats : Stats
  -- status and fault state (rules R38, R39, R41)
  halted : Bool
  modeShadow : ModeShadow
  faults : List FaultName
  log : List LogEntry
  -- the event history of the bus (rule R70)
  history : List SpiEvent
  -- the parameters of the block, which no operation changes (rule R6)
  par : Params
  -- the MODEL's own: the schedule of what comes next, the host operations that wait, the chip's queued answers, the number of
  -- free draws taken, and the result of the last operation that has one (log entries 9 to 12)
  inbox : List Input
  waiting : List Instr
  chipAnswers : List (Byte × Byte)
  draws : Nat
  result : OpResult
deriving DecidableEq, Repr

/-- The inbound slot that reset number `n` leaves unspecified (rule R371): free values of the widths of rule R35. -/
def unspecifiedInbound (par : Params) (n : Nat) : InPacket where
  payload := (List.range 128).map fun i => BitVec.ofNat 8 (Config.unspecified n (100 + i))
  len := Config.unspecified n 0 % 129
  rssi := (Config.unspecified n 1 : Int) - Config.unspecified n 2
  snr := (Config.unspecified n 3 : Int) - Config.unspecified n 4
  sf := BitVec.ofNat 4 (Config.unspecified n 5)
  ch := cutIndex par.plan.entries.length (Config.unspecified n 6)
  time := par.truncTime (Config.unspecified n 7)

/-- The outbound slot that reset number `n` leaves unspecified (rule R371): free values of the widths of rule R36. -/
def unspecifiedOutbound (par : Params) (n : Nat) : OutSlot where
  payload := (List.range par.maxTxLen.toNat).map fun i => BitVec.ofNat 8 (Config.unspecified n (300 + i))
  len := BitVec.ofNat 8 (Config.unspecified n 8)
  target := par.truncTime (Config.unspecified n 9)
  sf := BitVec.ofNat 8 (Config.unspecified n 10)
  power := BitVec.ofNat 8 (Config.unspecified n 11)
  freq := BitVec.ofNat 32 (Config.unspecified n 12)
  crc := Config.unspecified n 13 % 2 == 1
  iq := Config.unspecified n 14 % 2 == 1

/-- `eventTime` and `doneTime` between RESET and bring-up, in reset number `n`: free values (rule R371). -/
def unspecifiedEventTime (par : Params) (n : Nat) : Nat := par.truncTime (Config.unspecified n 15)
def unspecifiedDoneTime (par : Params) (n : Nat) : Nat := par.truncTime (Config.unspecified n 16)

/-- The current channel after RESET: `Cfg0.hop = 1 ? Cfg0.ch : 0`, cut to the index's width (rules R25, R371;
90_conflicts.md C1; log entry 14). -/
def resetChannel (n : Nat) (c : CfgRecord) : Nat := if c.hop = 1 then cutIndex n c.ch else 0

/-- The statistics after reset: all 0 (rules R37, R371). -/
def zeroStats (n : Nat) : Stats where
  msgTotal := 0
  msgOk := 0
  msgSent := 0
  okPerSf := List.replicate 6 0
  okPerCh := List.replicate n 0
  sentPerCh := List.replicate n 0

/-- The machine right after power-on and RESET(Cfg0) (rules R371, R373): `Cfg0` and the parameters are Config's, the clock is
unspecified, and what rule R371 leaves unspecified is a free value (log entries 5, 6, 13). -/
def State.reset : State where
  radioState := 0
  passActive := false
  booted := false
  txPhase := .idle
  sf := (powerOnParams.plan.entries.getD (resetChannel powerOnParams.plan.entries.length Config.cfg0)
    powerOnParams.plan.outside).minSF
  ch := resetChannel powerOnParams.plan.entries.length Config.cfg0
  cfgSF := Config.cfg0.sf.setWidth 4
  cfgHop := Config.cfg0.hop.getLsbD 0
  cfgCad := Config.cfg0.cad.getLsbD 0
  cfgCh := cutIndex powerOnParams.plan.entries.length Config.cfg0.ch
  cfg0 := Config.cfg0
  pending := false
  eventTime := unspecifiedEventTime powerOnParams 0
  doneTime := unspecifiedDoneTime powerOnParams 0
  clock := powerOnParams.truncTime Config.powerOnClock
  lastRssi := 0
  inValid := false
  inbound := unspecifiedInbound powerOnParams 0
  outValid := false
  outbound := unspecifiedOutbound powerOnParams 0
  stats := zeroStats powerOnParams.plan.entries.length
  halted := false
  modeShadow := .unknown
  faults := []
  log := []
  history := []
  par := powerOnParams
  inbox := []
  waiting := []
  chipAnswers := []
  draws := 1
  result := .none

end Sys2Proof.Machine
end

