-- ==== Sys2Proof/Machine/Operands.lean ====
section
/-! DEFINITION. The values that operations compute from their operands and the parameters: the frequency word, the power
clamp, the rate values, packet quality, the adjusted target, and the checks on a configuration or a request. -/

namespace Sys2Proof.Machine

open Sys2Proof

/-! ## Parameters, looked up -/

/-- The value for the chip family of the run (rule R160). -/
def PerVariant.pick {α : Type} (t : PerVariant α) : ChipVariant → α
  | .a => t.a
  | .b => t.b

/-- The value for a spreading factor. -/
def sfEntry {α : Type} (t : PerSf α) : Nat → α
  | 7 => t.sf7
  | 8 => t.sf8
  | 9 => t.sf9
  | 10 => t.sf10
  | 11 => t.sf11
  | 12 => t.sf12
  | _ => t.other

/-- The address of a chip register, as the 7-bit field `A` (rules R90, R97). -/
def regAddr (m : RegMap) : Reg → BitVec 7
  | .fifo => m.fifo
  | .opMode => m.opMode
  | .frfMsb => m.frfMsb
  | .frfMid => m.frfMid
  | .frfLsb => m.frfLsb
  | .paConfig => m.paConfig
  | .fifoAddrPtr => m.fifoAddrPtr
  | .fifoRxCurrentAddr => m.fifoRxCurrentAddr
  | .irqFlagsMask => m.irqFlagsMask
  | .irqFlags => m.irqFlags
  | .rxNbBytes => m.rxNbBytes
  | .pktSnrValue => m.pktSnrValue
  | .pktRssiValue => m.pktRssiValue
  | .rssiValue => m.rssiValue
  | .modemConfig1 => m.modemConfig1
  | .modemConfig2 => m.modemConfig2
  | .symbTimeoutLsb => m.symbTimeoutLsb
  | .payloadLength => m.payloadLength
  | .modemConfig3 => m.modemConfig3
  | .invertIq => m.invertIq
  | .dioMapping1 => m.dioMapping1
  | .version => m.version

/-- `ModeCode(m)` (rule R98). -/
def modeCode (m : ModeMap) : Mode → Byte
  | .sleep => m.sleep
  | .standby => m.standby
  | .fstx => m.fstx
  | .tx => m.tx
  | .fsrx => m.fsrx
  | .rxCont => m.rxCont
  | .rxSingle => m.rxSingle
  | .cad => m.cad

/-- `DioMap(k)` (rule R99). -/
def dioValue (m : DioMap) : DioKind → Byte
  | .cad => m.cad
  | .rx => m.rx
  | .tx => m.tx

/-- `IrqMask(k)` (rule R99): CAD enables CADDONE and CADDET, RX the four receive flags, TX only TXDONE. -/
def irqMask : DioKind → Byte
  | .cad => 0xFA
  | .rx => 0x0F
  | .tx => 0xF7

/-- `N`, the number of channel-plan entries (rule R6). -/
def State.numChannels (s : State) : Nat := s.par.plan.entries.length

/-- `Plan[i]` (rule R28). -/
def State.planAt (s : State) (i : Nat) : PlanEntry := s.par.plan.entries.getD i s.par.plan.outside

/-- `SM = cfgHop ∨ cfgCad`, scanner mode (rule R27). -/
def State.scannerMode (s : State) : Bool := s.cfgHop || s.cfgCad

/-! ## Frequency, power, rate -/

/-- `frf = floor(hz × 2^19 / 32 000 000)`, exact (rule R140). -/
def frequencyWord (hz : BitVec 32) : Nat := hz.toNat * 2 ^ 19 / 32000000

/-- The three bytes of the frequency word, `frf[23:16]`, `frf[15:8]`, `frf[7:0]` (rule R62). -/
def frequencyMsb (frf : Nat) : Byte := BitVec.ofNat 8 (frf / 2 ^ 16)
def frequencyMid (frf : Nat) : Byte := BitVec.ofNat 8 (frf / 2 ^ 8)
def frequencyLsb (frf : Nat) : Byte := BitVec.ofNat 8 frf

/-- `clamp(x, lo, hi)` (rule R8). -/
def clamp (x lo hi : Int) : Int := min (max x lo) hi

/-- The value of the PA register: `PaHighBits | clamp(p, 2, 15)`, with `p` an s8 (rules R106, R145). -/
def paValue (par : Params) (p : Byte) : Byte :=
  ((PerVariant.pick par.paHighNibble par.variant).setWidth 8 <<< 4) ||| BitVec.ofInt 8 (clamp p.toInt 2 15)

/-- The spreading factor is in 7..12 (rules R24, R143). -/
def sfInRange (sf : Nat) : Bool := 7 ≤ sf && sf ≤ 12

/-- `RateTable(ChipVariant, sf, crc)` but for the SF nibble (rule R142). -/
def rateEntry (par : Params) (sf : Nat) (crc : Bool) : Rate :=
  sfEntry (PerVariant.pick (if crc then par.rateCrc else par.rateNoCrc) par.variant) sf

/-- `mc2`, whose bits [7:4] are the SF (rule R142). -/
def rateMc2 (par : Params) (sf : Byte) (crc : Bool) : Byte :=
  (sf <<< 4) ||| (rateEntry par sf.toNat crc).mc2Low.setWidth 8

/-- `SymbTimeout(ChipVariant, sf ∈ {10, 11, 12})` (rule R144). -/
def symbTimeout (par : Params) (sf : Nat) : Byte :=
  PerVariant.pick (if 10 ≤ sf ∧ sf ≤ 12 then par.symbTimeoutLong else par.symbTimeoutShort) par.variant

/-- `IqValue(ChipVariant, invert)` (rule R152). -/
def iqValue (par : Params) (invert : Bool) : Byte :=
  PerVariant.pick (if invert then par.iqInverted else par.iqNormal) par.variant

/-- The mode register's new value: `(old & ~ModeMask) | ModeCode(m)` (rule R150). -/
def opModeValue (par : Params) (old : Byte) (m : Mode) : Byte := (old &&& ~~~par.modes.mask) ||| modeCode par.modes m

/-! ## Packet quality -/

/-- `RssiOffset(v)`: 139 for VARIANT_A, 157 for VARIANT_B (rule R312). -/
def rssiOffset : ChipVariant → Int
  | .a => 139
  | .b => 157

/-- `inRssi = zext(rssiRaw) − RssiOffset(ChipVariant)` (rule R312). -/
def packetRssi (v : ChipVariant) (raw : Byte) : Int := (raw.toNat : Int) - rssiOffset v

/-- `Snr(r)`: the flooring shift, or the division that rounds toward zero (rule R311). -/
def packetSnr (mode : SnrRounding) (raw : Byte) : Int :=
  match mode with
  | .floor => raw.toInt / 4
  | .trunc => raw.toInt.tdiv 4

/-! ## The scheduler -/

/-- `adj = (target + TxDelay + (sf = 7 ? Sf7Extra : 0)) mod 2^W` (rule R282). -/
def adjustedTarget (par : Params) (target : Nat) (sf : Byte) : Nat :=
  par.truncTime (target + par.txDelay + if sf = 7 then par.sf7Extra else 0)

/-- The phase of a wait as a function of the remaining time (rule R284). -/
def State.waitPhase (s : State) : WaitPhase :=
  match s.txPhase with
  | .waiting adj => if s.par.coarseThreshold < s.par.subTime adj s.clock then .coarse else .fine
  | _ => .none

/-! ## Checks -/

/-- The checks of CONFIGURE on a record, other than its state check (rule R305); bring-up makes the same (rule R372). -/
def configValid (n : Nat) (c : CfgRecord) : Bool :=
  sfInRange c.sf.toNat && c.hop.toNat ≤ 1 && c.cad.toNat ≤ 1 && c.ch < n && (c.hop != 1 || 3 ≤ n)

/-- The checks of SUBMIT_TX on the length and the frequency (rule R302). -/
def requestValid (par : Params) (r : OutboundRequest) : Bool :=
  1 ≤ r.payload.length && r.payload.length ≤ par.maxTxLen.toNat && r.freq.toNat < 1024000000

/-- The block's registers hold fewer bits than a record's fields: an assignment keeps the low bits (log entry 14). -/
def cfgSfOf (c : CfgRecord) : BitVec 4 := c.sf.setWidth 4
def cfgHopOf (c : CfgRecord) : Bool := c.hop.getLsbD 0
def cfgCadOf (c : CfgRecord) : Bool := c.cad.getLsbD 0
def State.cfgChOf (s : State) (c : CfgRecord) : Nat := cutIndex s.numChannels c.ch

end Sys2Proof.Machine
end

