-- ==== Sys2Proof/Machine/Ops.lean ====
section
/-! DEFINITION. The named operations that every meaning is made of: the log, model faults and refusals (60_exceptions.md), the
bus transactions (20_memory.md), the packet slots, and the conditions under which an operation is enabled. -/

namespace Sys2Proof.Machine

open Sys2Proof

/-! ## The operating registers (rules R23, R24, R36) -/

/-- `sf <- v`. -/
def State.setSf (s : State) (v : BitVec 4) : State := { s with sf := v }

/-- `state <- S` (rule R10). -/
def State.setState (s : State) (st : BitVec 3) : State := { s with radioState := st }

/-- `outValid <- 0`: the outbound request is consumed (rule R260). -/
def State.consume (s : State) : State := { s with outValid := false }

/-- `txPhase <- p` (rule R36). -/
def State.setPhase (s : State) (p : TxPhase) : State := { s with txPhase := p }

/-- `inValid <- 1`, with the packet (rules R35, R310). -/
def State.deliver (s : State) (p : InPacket) : State := { s with inbound := p, inValid := true }

/-- `eventTime <- now` (rule R33). -/
def State.stampNow (s : State) : State := { s with eventTime := s.clock }

/-- `doneTime <- now` (rule R33). -/
def State.stampDone (s : State) : State := { s with doneTime := s.clock }

/-! ## The log (rule R345) -/

/-- `Log(code, info)`: append the entry with the clock's time. -/
def State.logEntry (s : State) (code : LogCode) (info : List Nat) : State :=
  { s with log := s.log ++ [⟨code, info, s.clock⟩] }

/-! ## Abnormal outcomes

The block has no trap mechanism (60_exceptions.md): what other machines call taking an exception is recording a model fault or
answering with a refusal code. Nothing is saved and nothing returns (rule R339). -/

/-- `raise Fault(name)`: `faults` gains the name, and everything else is as it was before the step (rule R346). -/
def State.raiseFault (s : State) (f : FaultName) : State :=
  { s with faults := if s.faults.contains f then s.faults else s.faults ++ [f] }

/-- The end of a step that began in `s`: its result, or the model fault that ended it. Rule R346 leaves "every other register" as
it was before the step. That the bus transactions which the step had issued before the fault leave the event history too, and
the chip's answers and draws that served them stand as before, is the model's choice (DESIGN CHOICE, log entry 23). -/
def State.settle (s : State) (r : Except FaultName State) : State :=
  match r with
  | .ok t => t
  | .error f => s.raiseFault f

/-- A refusal (rule R347): the code is the result; REFUSE_BAD_OP also appends the entry E_BAD_OP. -/
def State.refuse (s : State) (c : RefuseCode) : State :=
  { s with
    log := if c = .badOp then s.log ++ [⟨.badOp, [], s.clock⟩] else s.log
    result := .refused c }

/-- The operation's result (rule R317). -/
def State.answer (s : State) (r : OpResult) : State := { s with result := r }

/-! ## Bus transactions (rules R66, R70, R71) -/

/-- The first queued answer of the chip for an address, and the queue without it. -/
def takeAnswer (addr : Byte) : List (Byte × Byte) → Option (Byte × List (Byte × Byte))
  | [] => none
  | (a, v) :: rest =>
    if a = addr then some (v, rest)
    else (takeAnswer addr rest).map fun p => (p.1, (a, v) :: p.2)

/-- What a read of an address returns (rule R66): the chip's queued answer if it has one, else a free draw. -/
def State.oracle (s : State) (addr : Byte) : Byte :=
  match takeAnswer addr s.chipAnswers with
  | some p => p.1
  | none => Config.chipDraw s.draws

/-- The queued answers after a read of an address: the one that served it is used up. -/
def answersAfter (addr : Byte) (l : List (Byte × Byte)) : List (Byte × Byte) :=
  match takeAnswer addr l with
  | some p => p.2
  | none => l

/-- The free draws taken after a read of an address: one more, where no queued answer served it. -/
def drawsAfter (addr : Byte) (l : List (Byte × Byte)) (n : Nat) : Nat :=
  match takeAnswer addr l with
  | some _ => n
  | none => n + 1

/-- The chip oracle after a read. -/
def State.oracleStep (s : State) (addr : Byte) : State :=
  { s with
    chipAnswers := answersAfter addr s.chipAnswers
    draws := drawsAfter addr s.chipAnswers s.draws }

/-- Append a transaction to the event history (rule R70). -/
def State.record (s : State) (e : SpiEvent) : State := { s with history := s.history ++ [e] }

/-- The transaction of `SpiRead(a)`: its state; the value read is `s.oracle a` (rule R130). -/
def State.busRead (s : State) (addr : Byte) : State :=
  (s.oracleStep addr).record ⟨.read, addr, [s.oracle addr]⟩

/-- The transaction of `SpiWrite(a, v)` (rule R131). -/
def State.busWrite (s : State) (addr v : Byte) : State := s.record ⟨.write, addr, [v]⟩

/-- The transaction of `SpiBurst(a, bytes)` (rule R132). -/
def State.busBurst (s : State) (addr : Byte) (data : List Byte) : State := s.record ⟨.burst, addr, data⟩

/-- The bytes of a transaction on the bus: `{W, A}` and the data, W = 1 for a write (rules R90, R91). -/
def SpiEvent.wire (e : SpiEvent) : List Byte :=
  (if e.kind = .read then e.addr &&& 0x7F else 0x80 ||| e.addr) :: e.data

/-- `SpiRead(a)`: `F_ADDR_RANGE` above 0x7F (rule R130). -/
def spiRead (addr : Byte) (s : State) : Except FaultName (Byte × State) :=
  if 0x7F < addr.toNat then .error .addrRange else .ok (s.oracle addr, s.busRead addr)

/-- `SpiWrite(a, v)`: `F_ADDR_RANGE` above 0x7F (rule R131). -/
def spiWrite (addr v : Byte) (s : State) : Except FaultName State :=
  if 0x7F < addr.toNat then .error .addrRange else .ok (s.busWrite addr v)

/-- `SpiBurst(a, bytes)`: `F_ADDR_RANGE` above 0x7F, then `F_EMPTY_BURST` on no bytes (rule R132). -/
def spiBurst (addr : Byte) (data : List Byte) (s : State) : Except FaultName State :=
  if 0x7F < addr.toNat then .error .addrRange
  else if data.isEmpty then .error .emptyBurst
  else .ok (s.busBurst addr data)

/-- The address byte of a chip register: its 7 bits, zero-extended (rule R90). So no access below can fault. -/
def State.regByte (s : State) (r : Reg) : Byte := (regAddr s.par.regs r).setWidth 8

/-- The value that a read of a chip register returns. -/
def State.regValue (s : State) (r : Reg) : Byte := s.oracle (s.regByte r)

/-- `SpiRead` of a chip register: its state. -/
def State.readReg (s : State) (r : Reg) : State := s.busRead (s.regByte r)

/-- `SpiWrite` to a chip register. -/
def State.writeReg (s : State) (r : Reg) (v : Byte) : State := s.busWrite (s.regByte r) v

/-- `lastRssi <- SpiRead(REG_RSSI_VALUE)` (rules R34, R201). -/
def State.captureRssi (s : State) : State := { s.readReg .rssiValue with lastRssi := s.regValue .rssiValue }

/-! ## The packet slots (rules R35, R36) -/

/-- Write bytes to the front of a payload buffer; the entries behind them keep their values. -/
def writeFront (bytes old : List Byte) : List Byte := bytes ++ old.drop bytes.length

/-- Increment the counter at an index, modulo 2^32 (rule R37). There is no counter past the list, and nothing counts there
(DESIGN CHOICE, log entry 7). -/
def bumpAt (i : Nat) (l : List Counter) : List Counter := l.modify i (· + 1)

/-- Increment the counter of a spreading factor 7 to 12 (rule R37). No other has one, and nothing counts there (DESIGN CHOICE,
log entry 7). -/
def bumpSf (sf : Nat) (l : List Counter) : List Counter := if sfInRange sf then bumpAt (sf - 7) l else l

/-! ## When an operation is enabled -/

/-- EVAL_PASS's precondition (rules R190, R195). -/
def State.passEnabled (s : State) : Bool := !s.halted && s.booted && !s.passActive && s.faults.isEmpty

/-- BRINGUP's enabling condition (rule R372). No host operation is in progress between two steps (rule R21). -/
def State.bringupEnabled (s : State) : Bool := !s.booted && !s.halted && s.faults.isEmpty

/-- SUBMIT_TX, TAKE_PACKET and CONFIGURE are enabled (rules R21, R317, R346, R373; 90_conflicts.md C14): no pass is in
progress, no model fault is recorded, and the block has booted or is halted. -/
def State.hostReady (s : State) : Bool := !s.passActive && s.faults.isEmpty && (s.booted || s.halted)

/-- READ_STATS is enabled (rules R317, R346). -/
def State.statsReady (s : State) : Bool := !s.passActive && s.faults.isEmpty

/-- A host operation that is not enabled is not refused: it waits (rules R21, R317). -/
def State.park (s : State) (i : Instr) : State := { s with waiting := s.waiting ++ [i] }

/-- The FSM engine may issue an operation: it is neither halted, nor faulted, nor inside the transmit wait (rules R195, R283,
R331, R346). Bring-up is not asked for, since BRINGUP comes before it and EVAL_PASS asks for it itself (rule R190): that another
frame of the engine's, a row or a WAIT_UNTIL among them, runs in a block that has not booted, and so may set `passActive` there,
is the model's choice (DESIGN CHOICE, log entry 24). -/
def State.engineFree (s : State) : Bool := !s.halted && s.faults.isEmpty && s.txPhase == .idle

end Sys2Proof.Machine
end

