-- ==== Sys2Proof/Machine/Flags.lean ====
section
/-! DEFINITION. The interrupt flags and the evaluation key: the flag bits (rule R92), re-baselining and the soft timeouts
(42_hop_controller.md), the secondary condition and the key itself (rules R191 to R194). -/

namespace Sys2Proof.Machine

open Sys2Proof

/-! ## The radio states and the flag bits -/

/-- The codes of `radioState` (rule R23). -/
def stInit : BitVec 3 := 0
def stScan : BitVec 3 := 1
def stCad : BitVec 3 := 2
def stRx : BitVec 3 := 3
def stTx : BitVec 3 := 4
def stTxDone : BitVec 3 := 5

/-- The flags of the snapshot by name (rule R92). -/
def flagRxdone (f : Byte) : Bool := f.getLsbD 6
def flagHdrvalid (f : Byte) : Bool := f.getLsbD 4
def flagCaddone (f : Byte) : Bool := f.getLsbD 2
def flagCaddet (f : Byte) : Bool := f.getLsbD 0

/-! ## Timestamps (rules R175, R193) -/

/-- A stored time that is numerically ahead of `now` is set to `now`. -/
def rebased (now t : Nat) : Nat := if now < t then now else t

/-- Re-baseline both timestamps to the clock. -/
def State.rebaseline (s : State) : State :=
  { s with eventTime := rebased s.clock s.eventTime, doneTime := rebased s.clock s.doneTime }

/-- `elapsed(T) = now − T` (rule R175): no stored time is ahead of `now` after a re-baseline, so nothing is cut off. For a row
alone, without a re-baseline, a time ahead of `now` gives 0 (DESIGN CHOICE, log entry 17). -/
def State.elapsed (s : State) (t : Nat) : Nat := s.clock - t

/-! ## The conditions of the key -/

/-- `Thr = RssiThreshold − HopRssiAdjust × HOP`, an integer (rule R173). -/
def State.cadThreshold (s : State) : Int := s.par.rssiThreshold - if s.cfgHop then Config.hopRssiAdjust else 0

/-- TMO by radio state, on re-baselined timestamps (rules R176 to R179, R193). -/
def State.tmo (s : State) : Bool :=
  if s.radioState = stScan then s.cfgHop && sfEntry s.par.doneWaitScan s.sf.toNat < s.elapsed s.doneTime
  else if s.radioState = stCad then s.cfgHop && sfEntry s.par.doneWaitCad s.sf.toNat < s.elapsed s.doneTime
  else if s.radioState = stRx then s.cfgHop && sfEntry s.par.eventWait s.sf.toNat < s.elapsed s.eventTime
  else if s.radioState = stTxDone then Config.txDoneTimeout < s.elapsed s.eventTime
  else false

/-- The snapshot makes the key read `REG_RSSI_VALUE`: SCAN, CADDONE without CADDET (rule R192). -/
def State.readsRssi (s : State) (flags : Byte) : Bool :=
  s.radioState == stScan && !flagCaddet flags && flagCaddone flags

/-- The secondary condition X (rule R192). -/
def State.secondary (s : State) (flags : Byte) : Bool :=
  if s.readsRssi flags then decide (s.cadThreshold < ((s.regValue .rssiValue).toNat : Int))
  else if s.radioState = stCad then !flagCaddet flags && flagCaddone flags && (s.planAt s.ch).maxSF ≤ s.sf
  else if s.radioState = stRx then flagRxdone flags && (flagHdrvalid flags || !s.par.requireValidHeader)
  else false

/-- The state after X is formed: the RSSI read, where there is one (rule R192). -/
def State.secondaryStep (s : State) (flags : Byte) : State :=
  if s.readsRssi flags then s.readReg .rssiValue else s

/-- `if FLAGS ≠ 0: eventTime <- now` (rule R194). -/
def State.stampEvent (s : State) (flags : Byte) : State :=
  { s with eventTime := if flags = 0 then s.eventTime else s.clock }

/-- A bit of the key, by its position. -/
def keyBit (b : Bool) (pos : Nat) : BitVec 16 := if b then 1#16 <<< pos else 0

/-- The evaluation key (rules R95, R191). -/
def State.key (s : State) (flags : Byte) (tmo x : Bool) : BitVec 16 :=
  (s.radioState.setWidth 16 <<< 13) ||| keyBit x 12 ||| keyBit tmo 11 ||| keyBit s.cfgHop 10 |||
    keyBit s.scannerMode 9 ||| keyBit s.outValid 8 ||| flags.setWidth 16

/-- The state field and the flag byte of a key, as the log entries carry them (rules R95, R239). -/
def keyStateCode (k : BitVec 16) : Nat := (k.extractLsb' 13 3).toNat
def keyFlagByte (k : BitVec 16) : Nat := (k.extractLsb' 0 8).toNat

end Sys2Proof.Machine
end

