-- ==== Sys2Proof/Machine/HostOps.lean ====
section
/-! DEFINITION. The external interface: the environment and host operations (46_packet_and_host.md) and RESET
(70_reset_and_hazards.md). A host operation that is not enabled waits; it is not refused (rules R21, R317). -/

namespace Sys2Proof.Machine

open Sys2Proof

/-! ## Environment operations -/

/-- The line is not wired: line 3, or line 2 with two lines (rules R94, R300). -/
def State.lineUnwired (s : State) (line : BitVec 2) : Bool := line == 3 || (line == 2 && !s.par.threeIrqLines)

/-- IRQ_EDGE (rule R300). -/
def execIrqEdge (line : BitVec 2) (s : State) : Host.Outcome State Fault Refusal :=
  .next (if s.lineUnwired line then s.refuse .badOp else { s with pending := true }.answer .none)

/-- `txPhase` after the clock advances by `d`: a wait whose distance is covered is released (rules R283, R301). -/
def State.phaseAfter (s : State) (d : Nat) : TxPhase :=
  match s.txPhase with
  | .waiting adj => if s.par.subTime adj s.clock ≤ d then .released else .waiting adj
  | p => p

/-- A step of `d` is in range: `1 ≤ d < 2^(W−1)` (rules R40, R301). -/
def State.tickInRange (s : State) (d : Nat) : Bool := d != 0 && d < 2 ^ (s.par.timeBits - 1)

/-- CLOCK_ADVANCE (rule R301). -/
def execClockAdvance (d : Nat) (s : State) : Host.Outcome State Fault Refusal :=
  .next (if s.tickInRange d then { s with txPhase := s.phaseAfter d, clock := s.par.truncTime (s.clock + d) }.answer .none
    else s.refuse .badOp)

/-! ## SUBMIT_TX and TAKE_PACKET -/

/-- The outbound slot with a request staged in it (rule R302); its target register has W bits (rule R36; log entry 1). -/
def stageRequest (par : Params) (old : OutSlot) (r : OutboundRequest) : OutSlot where
  payload := writeFront r.payload old.payload
  len := BitVec.ofNat 8 r.payload.length
  target := par.truncTime r.target
  sf := r.sf
  power := r.power
  freq := r.freq
  crc := r.crc
  iq := r.iq

/-- SUBMIT_TX's operation, where it is enabled (rule R302). -/
def State.submitTx (s : State) (r : OutboundRequest) : State :=
  if s.halted then s.refuse .halted
  else if s.outValid then (s.logEntry .txBusy []).answer .busy
  else if !requestValid s.par r then
    (s.logEntry .txInvalid [r.payload.length, r.freq.toNat]).answer .invalid
  else { s with outbound := stageRequest s.par s.outbound r, outValid := true }.answer .ok

/-- SUBMIT_TX (rule R302). -/
def execSubmitTx (r : OutboundRequest) (s : State) : Host.Outcome State Fault Refusal :=
  .next (if s.hostReady then s.submitTx r else s.park (.submitTx r))

/-- The packet that TAKE_PACKET hands over: the first `inLen` payload bytes (rule R303). -/
def handedPacket (p : InPacket) : InPacket := { p with payload := p.payload.take p.len }

/-- TAKE_PACKET's operation, where it is enabled (rule R303). -/
def State.takePacket (s : State) : State :=
  if s.halted then s.refuse .halted
  else if s.inValid then { s with inValid := false }.answer (.packet (handedPacket s.inbound))
  else s.answer .empty

/-- TAKE_PACKET (rule R303). -/
def execTakePacket (s : State) : Host.Outcome State Fault Refusal :=
  .next (if s.hostReady then s.takePacket else s.park .takePacket)

/-! ## Reads -/

/-- READ_STATS (rule R304): the counters are the result, and are not cleared. -/
def execReadStats (s : State) : Host.Outcome State Fault Refusal :=
  .next (if s.statsReady then s.answer (.stats s.stats) else s.park .readStats)

/-- The snapshot of READ_STATE (rule R309). -/
def State.snapshot (s : State) : Snapshot where
  radioState := s.radioState
  sf := s.sf
  ch := s.ch
  cfgSF := s.cfgSF
  cfgHop := s.cfgHop
  cfgCad := s.cfgCad
  cfgCh := s.cfgCh
  txPhase := s.txPhase
  waitPhase := s.waitPhase
  lastRssi := s.lastRssi
  halted := s.halted
  inValid := s.inValid
  outValid := s.outValid
  modeShadow := s.modeShadow
  faults := s.faults
  log := s.log

/-- READ_STATE (rule R309): enabled in every state. -/
def execReadState (s : State) : Host.Outcome State Fault Refusal := .next (s.answer (.snapshot s.snapshot))

/-! ## CONFIGURE -/

/-- `ch <- (hop = 1 ? cfgCh : 0)` (rule R305; 90_conflicts.md C1). -/
def configuredChannel (c : CfgRecord) : Nat := if c.hop = 1 then c.ch else 0

/-- CONFIGURE's operation, where it is enabled (rule R305). -/
def State.configure (s : State) (c : CfgRecord) : State :=
  if s.halted then s.refuse .halted
  else if s.radioState = stTx ∨ s.radioState = stTxDone ∨ configValid s.numChannels c = false then
    (s.logEntry .configRejected [c.sf.toNat, c.hop.toNat, c.cad.toNat, c.ch]).answer .rejected
  else { s with
      cfgSF := cfgSfOf c
      cfgHop := cfgHopOf c
      cfgCad := cfgCadOf c
      cfgCh := c.ch
      ch := configuredChannel c
      radioState := stInit }.answer .ok

/-- CONFIGURE (rule R305). -/
def execConfigure (c : CfgRecord) (s : State) : Host.Outcome State Fault Refusal :=
  .next (if s.hostReady then s.configure c else s.park (.configure c))

/-! ## RESET -/

/-- Every block register at its reset value, with `Cfg0` (rule R371). The clock, `faults` and the parameters stay; what the
rule leaves unspecified takes free values. -/
def State.applyReset (s : State) (c : CfgRecord) : State :=
  { s with
    radioState := stInit
    passActive := false
    booted := false
    txPhase := .idle
    sf := (s.planAt (resetChannel s.numChannels c)).minSF
    ch := resetChannel s.numChannels c
    cfgSF := cfgSfOf c
    cfgHop := cfgHopOf c
    cfgCad := cfgCadOf c
    cfgCh := s.cfgChOf c
    cfg0 := c
    pending := false
    eventTime := unspecifiedEventTime s.par s.draws
    doneTime := unspecifiedDoneTime s.par s.draws
    lastRssi := 0
    inValid := false
    inbound := unspecifiedInbound s.par s.draws
    outValid := false
    outbound := unspecifiedOutbound s.par s.draws
    stats := zeroStats s.numChannels
    halted := false
    modeShadow := .unknown
    log := []
    draws := s.draws + 1 }

/-- RESET (rule R370): at any step; a pass in progress, or a wait, is abandoned. -/
def execReset (c : CfgRecord) (s : State) : Host.Outcome State Fault Refusal := .next ((s.applyReset c).answer .none)

end Sys2Proof.Machine
end

