-- ==== Sys2Proof/WellFormed.lean ====
section
/-! DEFINITION. Well-formed operations: the operand values that the encodings admit (rules R90, R91, R103) and, for a row
of format EVAL, the condition of rule R101 on the key that selects it, written out with the rows before it (rule R102). -/

namespace Sys2Proof

/-- The state field `S` of an evaluation key (rule R95). -/
def keyS (k : BitVec 16) : Nat := k.toNat / 2 ^ 13

/-- The flag byte of an evaluation key is zero: the condition `F=0` of rule R101. -/
def keyQuiet (k : BitVec 16) : Bool := k.toNat % 256 == 0

/-- The key's fields by name, as rule R95 and rule R92 place them. -/
def keyX (k : BitVec 16) : Bool := k.getLsbD 12
def keyTmo (k : BitVec 16) : Bool := k.getLsbD 11
def keyHop (k : BitVec 16) : Bool := k.getLsbD 10
def keySm (k : BitVec 16) : Bool := k.getLsbD 9
def keyTxq (k : BitVec 16) : Bool := k.getLsbD 8
def keyRxtout (k : BitVec 16) : Bool := k.getLsbD 7
def keyRxdone (k : BitVec 16) : Bool := k.getLsbD 6
def keyCrcerr (k : BitVec 16) : Bool := k.getLsbD 5
def keyTxdone (k : BitVec 16) : Bool := k.getLsbD 3
def keyCaddone (k : BitVec 16) : Bool := k.getLsbD 2
def keyCaddet (k : BitVec 16) : Bool := k.getLsbD 0

/-- In SCAN and CAD, no flag that a row of the state names, but some flag: "any other" of rule R101. -/
def keyStray (k : BitVec 16) : Bool := !keyQuiet k && !keyCaddet k && !keyCaddone k

/-- The flag byte is HDRVALID alone (rule R252). -/
def keyHdrOnly (k : BitVec 16) : Bool := k.toNat % 256 == 0x10

/-- The operand values an encoding admits (rules R90, R91, R103), and rule R101's condition for each EVAL row. -/
def Instr.wf : Instr → Bool
  | .spiRead a => a.toNat < 0x80
  | .spiWrite a _ => a.toNat < 0x80
  | .spiBurstWrite a data => a.toNat < 0x80 && !data.isEmpty
  | .irqEdge line => line != 3
  | .evInit k => keyS k == 0
  | .evScanDetect k => keyS k == 1 && keyCaddet k
  | .evScanPromote k => keyS k == 1 && !keyCaddet k && keyCaddone k && keyX k
  | .evScanDoneHop k => keyS k == 1 && !keyCaddet k && keyCaddone k && !keyX k && keyHop k
  | .evScanStay k => keyS k == 1 && !keyCaddet k && keyCaddone k && !keyX k && !keyHop k
  | .evScanTxreq k => keyS k == 1 && keyQuiet k && keyTxq k
  | .evScanSofthop k => keyS k == 1 && keyQuiet k && !keyTxq k && keyTmo k
  | .evScanIdle k => keyS k == 1 && keyQuiet k && !keyTxq k && !keyTmo k
  | .evScanUnexpected k => keyS k == 1 && keyStray k
  | .evCadDetect k => keyS k == 2 && keyCaddet k
  | .evCadNextSf k => keyS k == 2 && !keyCaddet k && keyCaddone k && !keyX k
  | .evCadExhausted k => keyS k == 2 && !keyCaddet k && keyCaddone k && keyX k
  | .evCadTxreq k => keyS k == 2 && keyQuiet k && keyTxq k
  | .evCadSofthop k => keyS k == 2 && keyQuiet k && !keyTxq k && keyTmo k
  | .evCadIdle k => keyS k == 2 && keyQuiet k && !keyTxq k && !keyTmo k
  | .evCadUnexpected k => keyS k == 2 && keyStray k
  | .evRxCrcerr k => keyS k == 3 && keyRxdone k && keyCrcerr k
  | .evRxHdrinv k => keyS k == 3 && keyRxdone k && !keyCrcerr k && !keyX k
  | .evRxDone k => keyS k == 3 && keyRxdone k && !keyCrcerr k && keyX k
  | .evRxTimeoutHop k => keyS k == 3 && !keyRxdone k && keyRxtout k && keyHop k
  | .evRxTimeout k => keyS k == 3 && !keyRxdone k && keyRxtout k && !keyHop k
  | .evRxHdrseen k => keyS k == 3 && keyHdrOnly k
  | .evRxTxreq k => keyS k == 3 && keyQuiet k && keyTxq k && !keySm k
  | .evRxSofttmo k => keyS k == 3 && keyQuiet k && !(keyTxq k && !keySm k) && keyTmo k
  | .evRxIdle k => keyS k == 3 && keyQuiet k && !(keyTxq k && !keySm k) && !keyTmo k
  | .evRxUnexpected k =>
      keyS k == 3 && !keyRxdone k && !keyRxtout k && !keyHdrOnly k && !keyQuiet k
  | .evTxRun k => keyS k == 4 && keyTxq k
  | .evTxNoreq k => keyS k == 4 && !keyTxq k
  | .evTxdDone k => keyS k == 5 && keyTxdone k
  | .evTxdTimeout k => keyS k == 5 && keyQuiet k && keyTmo k
  | .evTxdWait k => keyS k == 5 && keyQuiet k && !keyTmo k
  | .evTxdUnexpected k => keyS k == 5 && !keyTxdone k && !keyQuiet k
  | .evDefault k => keyS k == 6 || keyS k == 7
  | .setFrequency _ | .setRate _ _ | .setPower _ | .setOpmode _ | .setIq _ | .clearIrq _ | .setIrqMask _
  | .setDioMap _ | .checkChipId | .advanceChannel | .evalPass | .armScanner | .armRxSingle | .armRxCont
  | .armListen | .keyTx | .recover | .restart | .forceScan | .bringup | .waitUntil _ _ | .capturePacket
  | .submitTx _ | .takePacket | .readStats | .configure _ | .readState | .reset _ | .clockAdvance _ => true

end Sys2Proof
end

