-- ==== Sys2Proof/Decode.lean ====
section
/-! DEFINITION. Decoding and encoding (rules R90 to R105): the operation words of rule R100, the first-match table of
the evaluation keys of rules R101 and R102, the bus frames of rules R90 and R91, and the encoder written from the same
tables. -/

namespace Sys2Proof

/-- Why a frame is no operation (rules R102, R103). Each is answered with REFUSE_BAD_OP. -/
inductive DecodeError where
  /-- The code is not in the table of rule R100. -/
  | unassignedCode
  /-- A reserved IMM bit is set, or SET_DIO_MAP's `k` or IRQ_EDGE's `line` is 3 (rule R103). -/
  | reservedBits
  /-- The record beside the word is not the one that rule R100 names for the operation (log entry 4). -/
  | wrongRecord
  /-- The bytes are not a frame of rule R91: a read or a single write has 2 bytes, a burst write 1 + k with k ≥ 1. -/
  | badFrame
deriving DecidableEq, Repr

/-! ## Format OP -/

/-- The rows of format OP in the order of rule R100. -/
inductive OpName where
  | setFrequency | setRate | setPower | setOpmode | setIq | clearIrq
  | setIrqMask | setDioMap | checkChipId | advanceChannel | evalPass | armScanner
  | armRxSingle | armRxCont | armListen | keyTx | recover | restart
  | forceScan | bringup | waitUntil | capturePacket | irqEdge | submitTx
  | takePacket | readStats | configure | readState | reset | clockAdvance
deriving DecidableEq, Repr

/-- The row's match and mask, as opcode_table.json gives them: the code in bits [15:8], and the IMM bits it fixes. -/
def OpName.matchMask : OpName → BitVec 16 × BitVec 16
  | .setFrequency => (0x2000, 0xFFFF)
  | .setRate => (0x2100, 0xFFFE)
  | .setPower => (0x2200, 0xFFFF)
  | .setOpmode => (0x2300, 0xFFF8)
  | .setIq => (0x2400, 0xFFFE)
  | .clearIrq => (0x2500, 0xFF00)
  | .setIrqMask => (0x2600, 0xFF00)
  | .setDioMap => (0x2700, 0xFFFC)
  | .checkChipId => (0x2800, 0xFFFF)
  | .advanceChannel => (0x3000, 0xFFFF)
  | .evalPass => (0x4000, 0xFFFF)
  | .armScanner => (0x4100, 0xFFFF)
  | .armRxSingle => (0x4200, 0xFFFF)
  | .armRxCont => (0x4300, 0xFFFF)
  | .armListen => (0x4400, 0xFFFF)
  | .keyTx => (0x4500, 0xFFFF)
  | .recover => (0x4600, 0xFFFF)
  | .restart => (0x4700, 0xFFFF)
  | .forceScan => (0x4800, 0xFFFF)
  | .bringup => (0x4900, 0xFFFF)
  | .waitUntil => (0x5000, 0xFFFF)
  | .capturePacket => (0x6000, 0xFFFF)
  | .irqEdge => (0x8000, 0xFFFC)
  | .submitTx => (0x8100, 0xFFFF)
  | .takePacket => (0x8200, 0xFFFF)
  | .readStats => (0x8300, 0xFFFF)
  | .configure => (0x8400, 0xFFFF)
  | .readState => (0x8500, 0xFFFF)
  | .reset => (0x8600, 0xFFFF)
  | .clockAdvance => (0x8700, 0xFFFF)

/-- Every row of format OP. At most one matches a word (rule R102). -/
def opNames : List OpName :=
  [.setFrequency, .setRate, .setPower, .setOpmode, .setIq, .clearIrq,
   .setIrqMask, .setDioMap, .checkChipId, .advanceChannel, .evalPass, .armScanner,
   .armRxSingle, .armRxCont, .armListen, .keyTx, .recover, .restart,
   .forceScan, .bringup, .waitUntil, .capturePacket, .irqEdge, .submitTx,
   .takePacket, .readStats, .configure, .readState, .reset, .clockAdvance]

/-- `(word & mask) = match`. -/
def OpName.matches (n : OpName) (word : BitVec 16) : Bool := word &&& n.matchMask.2 == n.matchMask.1

/-- The operation code of a word, bits [15:8] (rule R96). -/
def opCode (word : BitVec 16) : Byte := word.extractLsb' 8 8

/-- The immediate of a word, bits [7:0] (rule R96). -/
def opImm (word : BitVec 16) : Byte := word.extractLsb' 0 8

/-- The code is one of rule R100's. -/
def codeAssigned (code : Byte) : Bool := opNames.any fun n => opCode n.matchMask.1 == code

/-- The codes 0x20 to 0x60 of rule R100 are internal: only the FSM engine issues them (rules R100, R103). -/
def codeInternal (code : Byte) : Bool := codeAssigned code && 0x20 ≤ code.toNat && code.toNat ≤ 0x60

/-- The mode of a name index, the IMM column of rule R98. -/
def modeOfIndex (i : BitVec 3) : Mode :=
  match i.toNat with
  | 0 => .sleep | 1 => .standby | 2 => .fstx | 3 => .tx | 4 => .fsrx | 5 => .rxCont | 6 => .rxSingle | _ => .cad

/-- The name index of a mode, the IMM column of rule R98. -/
def Mode.index : Mode → Byte
  | .sleep => 0 | .standby => 1 | .fstx => 2 | .tx => 3 | .fsrx => 4 | .rxCont => 5 | .rxSingle => 6 | .cad => 7

/-- SET_DIO_MAP's `k`: 0 CAD, 1 RX, 2 TX; 3 is refused (rule R100). -/
def dioOfIndex (i : BitVec 2) : Option DioKind :=
  match i.toNat with
  | 0 => some .cad | 1 => some .rx | 2 => some .tx | _ => none

/-- SET_DIO_MAP's `k` of a listening kind (rule R100). -/
def DioKind.index : DioKind → Byte
  | .cad => 0 | .rx => 1 | .tx => 2

/-- An operation whose operands are all in the word: its record is empty (rule R100). -/
def withEmptyRecord (i : Instr) : OperandRecord → Except DecodeError Instr
  | .empty => .ok i
  | _ => .error .wrongRecord

/-- The operation of a matched row: its operands from the word's IMM and from the record that rule R100 names. -/
def assembleOp (n : OpName) (word : BitVec 16) (record : OperandRecord) : Except DecodeError Instr :=
  match n with
  | .setFrequency =>
    match record with
    | .hz v => .ok (.setFrequency v)
    | _ => .error .wrongRecord
  | .setRate =>
    match record with
    | .rate sf => .ok (.setRate (word.getLsbD 0) sf)
    | _ => .error .wrongRecord
  | .setPower =>
    match record with
    | .power p => .ok (.setPower p)
    | _ => .error .wrongRecord
  | .setOpmode => withEmptyRecord (.setOpmode (modeOfIndex (word.extractLsb' 0 3))) record
  | .setIq => withEmptyRecord (.setIq (word.getLsbD 0)) record
  | .clearIrq => withEmptyRecord (.clearIrq (opImm word)) record
  | .setIrqMask => withEmptyRecord (.setIrqMask (opImm word)) record
  | .setDioMap =>
    match dioOfIndex (word.extractLsb' 0 2) with
    | some k => withEmptyRecord (.setDioMap k) record
    | none => .error .reservedBits
  | .waitUntil =>
    match record with
    | .wait target sf => .ok (.waitUntil target sf)
    | _ => .error .wrongRecord
  | .irqEdge =>
    if word.extractLsb' 0 2 = 3#2 then .error .reservedBits
    else withEmptyRecord (.irqEdge (word.extractLsb' 0 2)) record
  | .submitTx =>
    match record with
    | .request r => .ok (.submitTx r)
    | _ => .error .wrongRecord
  | .configure =>
    match record with
    | .config c => .ok (.configure c)
    | _ => .error .wrongRecord
  | .reset =>
    match record with
    | .config c => .ok (.reset c)
    | _ => .error .wrongRecord
  | .clockAdvance =>
    match record with
    | .tick d => .ok (.clockAdvance d)
    | _ => .error .wrongRecord
  | .checkChipId => withEmptyRecord .checkChipId record
  | .advanceChannel => withEmptyRecord .advanceChannel record
  | .evalPass => withEmptyRecord .evalPass record
  | .armScanner => withEmptyRecord .armScanner record
  | .armRxSingle => withEmptyRecord .armRxSingle record
  | .armRxCont => withEmptyRecord .armRxCont record
  | .armListen => withEmptyRecord .armListen record
  | .keyTx => withEmptyRecord .keyTx record
  | .recover => withEmptyRecord .recover record
  | .restart => withEmptyRecord .restart record
  | .forceScan => withEmptyRecord .forceScan record
  | .bringup => withEmptyRecord .bringup record
  | .capturePacket => withEmptyRecord .capturePacket record
  | .takePacket => withEmptyRecord .takePacket record
  | .readStats => withEmptyRecord .readStats record
  | .readState => withEmptyRecord .readState record

/-- The row a word matches. -/
def findOp (word : BitVec 16) : Option OpName := opNames.find? fun n => n.matches word

/-- Decode a word of format OP with its record (rules R96, R100, R102, R103). -/
def decodeOp (word : BitVec 16) (record : OperandRecord) : Except DecodeError Instr :=
  match findOp word with
  | some n => assembleOp n word record
  | none => .error (if codeAssigned (opCode word) then .reservedBits else .unassignedCode)

/-! ## Format EVAL -/

/-- The rows of format EVAL in the order of rule R101, which is opcode_table.json's `priority`. -/
inductive Row where
  | init | scanDetect | scanPromote | scanDoneHop | scanStay
  | scanTxreq | scanSofthop | scanIdle | scanUnexpected | cadDetect
  | cadNextSf | cadExhausted | cadTxreq | cadSofthop | cadIdle
  | cadUnexpected | rxCrcerr | rxHdrinv | rxDone | rxTimeoutHop
  | rxTimeout | rxHdrseen | rxTxreq | rxSofttmo | rxIdle
  | rxUnexpected | txRun | txNoreq | txdDone | txdTimeout
  | txdWait | txdUnexpected | default
deriving DecidableEq, Repr

/-- A row of the decode table: a key matches where `(K & mask) = match` (rule R102). -/
structure RowEntry where
  row : Row
  val : BitVec 16
  mask : BitVec 16
deriving DecidableEq, Repr

/-- The match and mask of every row, in decode order (rules R231 to R268; opcode_table.json). -/
def rowTable : List RowEntry :=
  [⟨.init, 0x0000, 0xE000⟩,
   ⟨.scanDetect, 0x2001, 0xE001⟩,
   ⟨.scanPromote, 0x3004, 0xF004⟩,
   ⟨.scanDoneHop, 0x2404, 0xF404⟩,
   ⟨.scanStay, 0x2004, 0xF404⟩,
   ⟨.scanTxreq, 0x2100, 0xE1FF⟩,
   ⟨.scanSofthop, 0x2800, 0xE8FF⟩,
   ⟨.scanIdle, 0x2000, 0xE0FF⟩,
   ⟨.scanUnexpected, 0x2000, 0xE000⟩,
   ⟨.cadDetect, 0x4001, 0xE001⟩,
   ⟨.cadNextSf, 0x4004, 0xF004⟩,
   ⟨.cadExhausted, 0x5004, 0xF004⟩,
   ⟨.cadTxreq, 0x4100, 0xE1FF⟩,
   ⟨.cadSofthop, 0x4800, 0xE8FF⟩,
   ⟨.cadIdle, 0x4000, 0xE0FF⟩,
   ⟨.cadUnexpected, 0x4000, 0xE000⟩,
   ⟨.rxCrcerr, 0x6060, 0xE060⟩,
   ⟨.rxHdrinv, 0x6040, 0xF040⟩,
   ⟨.rxDone, 0x6040, 0xE040⟩,
   ⟨.rxTimeoutHop, 0x6480, 0xE480⟩,
   ⟨.rxTimeout, 0x6080, 0xE480⟩,
   ⟨.rxHdrseen, 0x6010, 0xE0FF⟩,
   ⟨.rxTxreq, 0x6100, 0xE3FF⟩,
   ⟨.rxSofttmo, 0x6800, 0xE8FF⟩,
   ⟨.rxIdle, 0x6000, 0xE0FF⟩,
   ⟨.rxUnexpected, 0x6000, 0xE000⟩,
   ⟨.txRun, 0x8100, 0xE100⟩,
   ⟨.txNoreq, 0x8000, 0xE000⟩,
   ⟨.txdDone, 0xA008, 0xE008⟩,
   ⟨.txdTimeout, 0xA800, 0xE8FF⟩,
   ⟨.txdWait, 0xA000, 0xE0FF⟩,
   ⟨.txdUnexpected, 0xA000, 0xE000⟩,
   ⟨.default, 0xC000, 0xC000⟩]

/-- A key matches a row. -/
def RowEntry.matches (e : RowEntry) (key : BitVec 16) : Bool := key &&& e.mask == e.val

/-- The first row that a key matches (rule R102). Every key matches one; the last row stands for the rest. -/
def decodeKey (key : BitVec 16) : Row :=
  match rowTable.find? fun e => e.matches key with
  | some e => e.row
  | none => .default

/-- The operation of a row, on the key that selected it. -/
def Row.instr : Row → BitVec 16 → Instr
  | .init => .evInit
  | .scanDetect => .evScanDetect
  | .scanPromote => .evScanPromote
  | .scanDoneHop => .evScanDoneHop
  | .scanStay => .evScanStay
  | .scanTxreq => .evScanTxreq
  | .scanSofthop => .evScanSofthop
  | .scanIdle => .evScanIdle
  | .scanUnexpected => .evScanUnexpected
  | .cadDetect => .evCadDetect
  | .cadNextSf => .evCadNextSf
  | .cadExhausted => .evCadExhausted
  | .cadTxreq => .evCadTxreq
  | .cadSofthop => .evCadSofthop
  | .cadIdle => .evCadIdle
  | .cadUnexpected => .evCadUnexpected
  | .rxCrcerr => .evRxCrcerr
  | .rxHdrinv => .evRxHdrinv
  | .rxDone => .evRxDone
  | .rxTimeoutHop => .evRxTimeoutHop
  | .rxTimeout => .evRxTimeout
  | .rxHdrseen => .evRxHdrseen
  | .rxTxreq => .evRxTxreq
  | .rxSofttmo => .evRxSofttmo
  | .rxIdle => .evRxIdle
  | .rxUnexpected => .evRxUnexpected
  | .txRun => .evTxRun
  | .txNoreq => .evTxNoreq
  | .txdDone => .evTxdDone
  | .txdTimeout => .evTxdTimeout
  | .txdWait => .evTxdWait
  | .txdUnexpected => .evTxdUnexpected
  | .default => .evDefault

/-! ## Format SPI -/

/-- Decode a bus frame (rules R90, R91): bit 7 of byte 0 is `W` (1 writes), bits [6:0] the address. The chip drives the
data byte of a read. There is no burst read (90_conflicts.md C2). -/
def decodeSpi (burst : Bool) (bytes : List Byte) : Except DecodeError Instr :=
  match bytes with
  | [] => .error .badFrame
  | head :: data =>
    match head.getLsbD 7, burst, data with
    | false, false, [_] => .ok (.spiRead (head &&& 0x7F))
    | true, false, [v] => .ok (.spiWrite (head &&& 0x7F) v)
    | true, true, v :: vs => .ok (.spiBurstWrite (head &&& 0x7F) (v :: vs))
    | _, _, _ => .error .badFrame

/-! ## All formats -/

/-- Decode a frame: total, and every rejection has a name. -/
def decode : Frame → Except DecodeError Instr
  | .op word record => decodeOp word record
  | .eval key => .ok ((decodeKey key).instr key)
  | .spi burst bytes => decodeSpi burst bytes

/-- The frame belongs to the FSM engine's side: a bus transaction (rule R135), an evaluation key, or a word with an
internal code (rules R100, R103). -/
def Frame.internal : Frame → Bool
  | .op word _ => codeInternal (opCode word)
  | .eval _ => true
  | .spi _ _ => true

/-! ## The encoder -/

/-- The word of a row with an immediate (rule R96). -/
def opWord (n : OpName) (imm : Byte) : BitVec 16 := n.matchMask.1 ||| imm.setWidth 16

/-- The immediate of a single bit. -/
def bitImm (b : Bool) : Byte := if b then 1 else 0

/-- The frame of an operation: the word of rule R100 and its record, the key of an EVAL row, or the bytes of rule R90. The
data byte of a read is the chip's to drive and stands here as 0. -/
def encode : Instr → Frame
  | .spiRead a => .spi false [a, 0]
  | .spiWrite a v => .spi false [0x80 ||| a, v]
  | .spiBurstWrite a data => .spi true ((0x80 ||| a) :: data)
  | .setFrequency hz => .op (opWord .setFrequency 0) (.hz hz)
  | .setRate crc sf => .op (opWord .setRate (bitImm crc)) (.rate sf)
  | .setPower p => .op (opWord .setPower 0) (.power p)
  | .setOpmode m => .op (opWord .setOpmode m.index) .empty
  | .setIq invert => .op (opWord .setIq (bitImm invert)) .empty
  | .clearIrq bits => .op (opWord .clearIrq bits) .empty
  | .setIrqMask mask => .op (opWord .setIrqMask mask) .empty
  | .setDioMap k => .op (opWord .setDioMap k.index) .empty
  | .waitUntil target sf => .op (opWord .waitUntil 0) (.wait target sf)
  | .irqEdge line => .op (opWord .irqEdge (line.setWidth 8)) .empty
  | .submitTx req => .op (opWord .submitTx 0) (.request req)
  | .configure cfg => .op (opWord .configure 0) (.config cfg)
  | .reset cfg0 => .op (opWord .reset 0) (.config cfg0)
  | .clockAdvance d => .op (opWord .clockAdvance 0) (.tick d)
  | .checkChipId => .op (opWord .checkChipId 0) .empty
  | .advanceChannel => .op (opWord .advanceChannel 0) .empty
  | .evalPass => .op (opWord .evalPass 0) .empty
  | .armScanner => .op (opWord .armScanner 0) .empty
  | .armRxSingle => .op (opWord .armRxSingle 0) .empty
  | .armRxCont => .op (opWord .armRxCont 0) .empty
  | .armListen => .op (opWord .armListen 0) .empty
  | .keyTx => .op (opWord .keyTx 0) .empty
  | .recover => .op (opWord .recover 0) .empty
  | .restart => .op (opWord .restart 0) .empty
  | .forceScan => .op (opWord .forceScan 0) .empty
  | .bringup => .op (opWord .bringup 0) .empty
  | .capturePacket => .op (opWord .capturePacket 0) .empty
  | .takePacket => .op (opWord .takePacket 0) .empty
  | .readStats => .op (opWord .readStats 0) .empty
  | .readState => .op (opWord .readState 0) .empty
  | .evInit k => .eval k
  | .evScanDetect k => .eval k
  | .evScanPromote k => .eval k
  | .evScanDoneHop k => .eval k
  | .evScanStay k => .eval k
  | .evScanTxreq k => .eval k
  | .evScanSofthop k => .eval k
  | .evScanIdle k => .eval k
  | .evScanUnexpected k => .eval k
  | .evCadDetect k => .eval k
  | .evCadNextSf k => .eval k
  | .evCadExhausted k => .eval k
  | .evCadTxreq k => .eval k
  | .evCadSofthop k => .eval k
  | .evCadIdle k => .eval k
  | .evCadUnexpected k => .eval k
  | .evRxCrcerr k => .eval k
  | .evRxHdrinv k => .eval k
  | .evRxDone k => .eval k
  | .evRxTimeoutHop k => .eval k
  | .evRxTimeout k => .eval k
  | .evRxHdrseen k => .eval k
  | .evRxTxreq k => .eval k
  | .evRxSofttmo k => .eval k
  | .evRxIdle k => .eval k
  | .evRxUnexpected k => .eval k
  | .evTxRun k => .eval k
  | .evTxNoreq k => .eval k
  | .evTxdDone k => .eval k
  | .evTxdTimeout k => .eval k
  | .evTxdWait k => .eval k
  | .evTxdUnexpected k => .eval k
  | .evDefault k => .eval k

/-! ## The host's table words -/

/-- The record of zeros that stands beside a word: the one rule R100 names for its operation. -/
def zeroRecord : OpName → OperandRecord
  | .setFrequency => .hz 0
  | .setRate => .rate 0
  | .setPower => .power 0
  | .waitUntil => .wait 0 0
  | .submitTx => .request ⟨[], 0, 0, 0, 0, false, false⟩
  | .configure => .config ⟨0, 0, 0, 0⟩
  | .reset => .config ⟨0, 0, 0, 0⟩
  | .clockAdvance => .tick 0
  | _ => .empty

/-- The frame of a table word. The three formats have one number space, so the width and the word choose: a row of 8 bits
is the address byte of a 2-byte bus frame whose data byte is 0; a 16-bit word that is an operation word of rule R100
is taken as one, with the record of zeros; any other 16-bit word is an evaluation key (log entry 3). -/
def tableFrame (nbits w : Nat) : Frame :=
  if nbits ≤ 8 then .spi false [BitVec.ofNat 8 w, 0]
  else
    match findOp (BitVec.ofNat 16 w) with
    | some n => .op (BitVec.ofNat 16 w) (zeroRecord n)
    | none => .eval (BitVec.ofNat 16 w)

/-- The operation that the decoder reads from a table word (none where it refuses). -/
def decodeTableWord (nbits w : Nat) : Option Instr :=
  match decode (tableFrame nbits w) with
  | .ok i => some i
  | .error _ => none

end Sys2Proof
end

