-- ==== Sys2Proof/Machine/Packet.lean ====
section
/-! DEFINITION. Packet capture and the statistics (46_packet_and_host.md rules R310 to R316). -/

namespace Sys2Proof.Machine

open Sys2Proof

/-- The bytes of `n` successive FIFO reads, first to last (rule R64). -/
def State.drainBytes (s : State) : Nat → List Byte
  | 0 => []
  | n + 1 => s.regValue .fifo :: (s.readReg .fifo).drainBytes n

/-- The state after `n` successive FIFO reads (rule R64). -/
def State.drain (s : State) : Nat → State
  | 0 => s
  | n + 1 => (s.readReg .fifo).drain n

/-- Count a reception (rule R313). -/
def State.countReception (s : State) : State :=
  { s with stats := { s.stats with
      msgTotal := s.stats.msgTotal + 1
      msgOk := s.stats.msgOk + 1
      okPerSf := bumpSf s.sf.toNat s.stats.okPerSf
      okPerCh := bumpAt s.ch s.stats.okPerCh } }

/-- Count a rejected reception: `msgTotal` alone (rules R247, R248, R313). -/
def State.countRejected (s : State) : State :=
  { s with stats := { s.stats with msgTotal := s.stats.msgTotal + 1 } }

/-- Count a transmission (rule R263). -/
def State.countSent (s : State) : State :=
  { s with stats := { s.stats with
      msgSent := s.stats.msgSent + 1
      sentPerCh := bumpAt s.ch s.stats.sentPerCh } }

/-- `n` capped at MaxRxPayload (rule R315). -/
def cappedCount (nb : Byte) : Nat := min nb.toNat Config.maxRxPayload

/-- E7 with the claimed count, where it is above the cap (rule R315). -/
def State.logOversize (s : State) (nb : Byte) : State :=
  if Config.maxRxPayload < nb.toNat then s.logEntry .payloadOversize [nb.toNat] else s

/-- CAPTURE_PACKET's operation (rules R310 to R313). -/
def State.capturePacket (s : State) : State :=
  let snrRaw := s.regValue .pktSnrValue
  let s1 := s.readReg .pktSnrValue
  let rssiRaw := s1.regValue .pktRssiValue
  let s2 := s1.readReg .pktRssiValue
  let nb := s2.regValue .rxNbBytes
  let s3 := (s2.readReg .rxNbBytes).logOversize nb
  let base := s3.regValue .fifoRxCurrentAddr
  let s4 := (s3.readReg .fifoRxCurrentAddr).writeReg .fifoAddrPtr base
  let s5 := s4.drain (cappedCount nb)
  (s5.deliver {
    payload := writeFront (s4.drainBytes (cappedCount nb)) s.inbound.payload
    len := cappedCount nb
    rssi := packetRssi s.par.variant rssiRaw
    snr := packetSnr s.par.snrRounding snrRaw
    sf := s.sf
    ch := s.ch
    time := s.clock }).countReception

/-- CAPTURE_PACKET (rule R310). -/
def execCapturePacket (s : State) : Host.Outcome State Fault Refusal := .next s.capturePacket

end Sys2Proof.Machine
end

