-- ==== Sys2Proof/Machine/Hop.lean ====
section
/-! DEFINITION. The hop operation of the frequency/SF hopping controller (42_hop_controller.md). Its soft-interrupt conditions
are in Flags. -/

namespace Sys2Proof.Machine

open Sys2Proof

/-- `sf <- Plan[ch].minSF`. -/
def State.minSf (s : State) : State := s.setSf (s.planAt s.ch).minSF

/-- ADVANCE_CHANNEL's operation (rule R170). -/
def State.advanceChannel (s : State) : State := { s with ch := (s.ch + 1) % s.numChannels }.minSf

/-- ADVANCE_CHANNEL (rules R170, R171): no bus transaction. -/
def execAdvanceChannel (s : State) : Host.Outcome State Fault Refusal := .next s.advanceChannel

end Sys2Proof.Machine
end

