-- ==== Sys2Proof/Machine/ModemConfig.lean ====
section
/-! DEFINITION. The modem configuration operations (41_modem_config.md). -/

namespace Sys2Proof.Machine

open Sys2Proof

/-! ## The operations -/

/-- `modeShadow ∈ {SLEEP, STANDBY}` (rule R147). -/
def State.standbyHeld (s : State) : Bool := s.modeShadow == .known .sleep || s.modeShadow == .known .standby

/-- The reconfiguration precondition (rule R147). -/
def checkStandby (s : State) : Except FaultName Unit :=
  if s.standbyHeld then .ok () else .error .configActive

/-- The writes of a frequency word, most significant byte first (rules R62, R140). -/
def State.writeFrequencyWord (s : State) (frf : Nat) : State :=
  ((s.writeReg .frfMsb (frequencyMsb frf)).writeReg .frfMid (frequencyMid frf)).writeReg .frfLsb (frequencyLsb frf)

/-- SET_FREQUENCY's operation (rule R140). -/
def setFrequency (hz : BitVec 32) (s : State) : Except FaultName State := do
  checkStandby s
  if 2 ^ 24 ≤ frequencyWord hz then .error .freqRange
  else .ok (s.writeFrequencyWord (frequencyWord hz))

/-- The four writes of a rate: MC1, MC2, MC3, the symbol timeout (rule R142). -/
def State.writeRate (s : State) (sf : Byte) (crc : Bool) : State :=
  (((s.writeReg .modemConfig1 (rateEntry s.par sf.toNat crc).mc1).writeReg .modemConfig2 (rateMc2 s.par sf crc)).writeReg
    .modemConfig3 (rateEntry s.par sf.toNat crc).mc3).writeReg .symbTimeoutLsb (symbTimeout s.par sf.toNat)

/-- SET_RATE's operation: the range check stands first (rules R142, R143). -/
def setRate (sf : Byte) (crc : Bool) (s : State) : Except FaultName State :=
  if sfInRange sf.toNat then do
    checkStandby s
    .ok (s.writeRate sf crc)
  else .ok (s.logEntry .sfRange [sf.toNat])

/-- SET_POWER's operation (rule R145). -/
def setPower (p : Byte) (s : State) : Except FaultName State := do
  checkStandby s
  .ok (s.writeReg .paConfig (paValue s.par p))

/-- SET_OPMODE's operation: read, modify, write; then the shadow (rule R150). -/
def State.setOpMode (s : State) (m : Mode) : State :=
  { (s.readReg .opMode).writeReg .opMode (opModeValue s.par (s.regValue .opMode) m) with modeShadow := .known m }

/-- SET_IQ's operation (rule R152). -/
def State.setIq (s : State) (invert : Bool) : State := s.writeReg .invertIq (iqValue s.par invert)

/-- CLEAR_IRQ's operation (rule R154). -/
def State.clearIrq (s : State) (bits : Byte) : State := s.writeReg .irqFlags bits

/-- SET_IRQ_MASK's operation (rule R155). -/
def State.setIrqMask (s : State) (mask : Byte) : State := s.writeReg .irqFlagsMask mask

/-- SET_DIO_MAP's operation (rule R156). -/
def State.setDioMap (s : State) (k : DioKind) : State := s.writeReg .dioMapping1 (dioValue s.par.dioMap k)

/-- The identification register holds the expected value (rule R158). -/
def State.chipIdMatches (s : State) : Bool :=
  s.regValue .version == PerVariant.pick s.par.expectedChipId s.par.variant

/-- CHECK_CHIP_ID's state: the read and, on a mismatch, `halted` and E1 (rule R158). -/
def State.checkChipId (s : State) : State :=
  if s.chipIdMatches then s.readReg .version
  else { s.readReg .version with halted := true }.logEntry .chipId [(s.regValue .version).toNat]

/-! ## The meanings -/

/-- SET_FREQUENCY (rule R140). -/
def execSetFrequency (hz : BitVec 32) (s : State) : Host.Outcome State Fault Refusal :=
  .next (s.settle (setFrequency hz s))

/-- SET_RATE (rules R142 to R144). -/
def execSetRate (crc : Bool) (sf : Byte) (s : State) : Host.Outcome State Fault Refusal :=
  .next (s.settle (setRate sf crc s))

/-- SET_POWER (rules R145, R146). -/
def execSetPower (p : Byte) (s : State) : Host.Outcome State Fault Refusal :=
  .next (s.settle (setPower p s))

/-- SET_OPMODE (rule R150). -/
def execSetOpmode (m : Mode) (s : State) : Host.Outcome State Fault Refusal := .next (s.setOpMode m)

/-- SET_IQ (rule R152): the standby precondition does not apply. -/
def execSetIq (invert : Bool) (s : State) : Host.Outcome State Fault Refusal := .next (s.setIq invert)

/-- CLEAR_IRQ (rule R154). -/
def execClearIrq (bits : Byte) (s : State) : Host.Outcome State Fault Refusal := .next (s.clearIrq bits)

/-- SET_IRQ_MASK (rule R155). -/
def execSetIrqMask (mask : Byte) (s : State) : Host.Outcome State Fault Refusal := .next (s.setIrqMask mask)

/-- SET_DIO_MAP (rule R156). -/
def execSetDioMap (k : DioKind) (s : State) : Host.Outcome State Fault Refusal := .next (s.setDioMap k)

/-- CHECK_CHIP_ID (rule R158): OK or FAIL is the result. -/
def execCheckChipId (s : State) : Host.Outcome State Fault Refusal :=
  .next (s.checkChipId.answer (if s.chipIdMatches then .ok else .fail))

end Sys2Proof.Machine
end

