-- ==== Sys2Proof/Machine/Arming.lean ====
section
/-! DEFINITION. The arming sequences of the state machine (43_fsm_pass.md rules R200 to R207). `now` is the clock: a pass is
one atomic step, so its clock sample is the clock (rules R22, R301; log entry 15). -/

namespace Sys2Proof.Machine

open Sys2Proof

/-! ## The sequences -/

/-- The common front of ARM_SCANNER and ARM_RX_CONT: STANDBY, flags cleared, frequency and rate of the current channel and
SF, normal IQ (rules R200, R202). -/
def armFront (s : State) : Except FaultName State := do
  let t ← setFrequency (s.planAt s.ch).uplinkFrequencyHz ((s.setOpMode .standby).clearIrq 0xFF)
  let u ← setRate (s.sf.setWidth 8) s.par.rxCrcFlag t
  .ok (u.setIq false)

/-- The mapping, the mask and the mode that end an arming sequence (rules R200, R202). -/
def State.armTail (s : State) (k : DioKind) (m : Mode) : State :=
  ((s.setDioMap k).setIrqMask (irqMask k)).setOpMode m

/-- ARM_SCANNER (rule R200). -/
def armScanner (s : State) : Except FaultName State := do
  let t ← armFront s
  .ok (t.armTail .cad .cad).stampNow.stampDone

/-- ARM_RX_SINGLE (rule R201). -/
def State.armRxSingle (s : State) : State :=
  ((((s.setDioMap .rx).captureRssi.clearIrq 0xFF).setIrqMask (irqMask .rx)).setOpMode .rxSingle).stampNow

/-- ARM_RX_CONT (rule R202). -/
def armRxCont (s : State) : Except FaultName State := do
  let t ← armFront (s.setSf s.cfgSF)
  .ok (t.armTail .rx .rxCont).stampNow

/-- ARM_LISTEN (rule R203). -/
def armListen (s : State) : Except FaultName State :=
  if s.scannerMode then do
    let t ← armScanner s.minSf
    .ok (t.setState stScan)
  else do
    let t ← armRxCont s
    .ok (t.setState stRx)

/-- FORCE_SCAN (rule R204). -/
def forceScan (s : State) : Except FaultName State := do
  let t ← armScanner s.minSf
  .ok (t.setState stScan)

/-- The writes of KEY_TX behind the power: IQ, length, FIFO pointer (rule R205). -/
def State.loadTxHeader (s : State) : State :=
  ((s.setIq s.outbound.iq).writeReg .payloadLength s.outbound.len).writeReg .fifoAddrPtr s.par.txFifoBase

/-- KEY_TX (rule R205). -/
def keyTx (s : State) : Except FaultName State := do
  let t ← setFrequency s.outbound.freq (s.setOpMode .standby)
  let u ← setRate s.outbound.sf s.outbound.crc t
  let v ← setPower s.outbound.power u
  let w ← spiBurst (s.regByte .fifo) (s.outbound.payload.take s.outbound.len.toNat) v.loadTxHeader
  .ok ((w.setDioMap .tx).setOpMode .tx).stampNow

/-- RECOVER (rule R206). -/
def recover (s : State) : Except FaultName State := armListen ((s.clearIrq 0xFF).setIrqMask 0x00)

/-- RESTART (rule R207). -/
def State.restart (s : State) : State :=
  ((((s.setOpMode .sleep).setOpMode .standby).clearIrq 0xFF).setIrqMask 0x00).setState stInit

/-! ## The meanings -/

/-- ARM_SCANNER (rule R200). -/
def execArmScanner (s : State) : Host.Outcome State Fault Refusal := .next (s.settle (armScanner s))

/-- ARM_RX_SINGLE (rule R201). -/
def execArmRxSingle (s : State) : Host.Outcome State Fault Refusal := .next s.armRxSingle

/-- ARM_RX_CONT (rule R202). -/
def execArmRxCont (s : State) : Host.Outcome State Fault Refusal := .next (s.settle (armRxCont s))

/-- ARM_LISTEN (rule R203). -/
def execArmListen (s : State) : Host.Outcome State Fault Refusal := .next (s.settle (armListen s))

/-- KEY_TX (rule R205). -/
def execKeyTx (s : State) : Host.Outcome State Fault Refusal := .next (s.settle (keyTx s))

/-- RECOVER (rule R206). -/
def execRecover (s : State) : Host.Outcome State Fault Refusal := .next (s.settle (recover s))

/-- RESTART (rule R207). -/
def execRestart (s : State) : Host.Outcome State Fault Refusal := .next s.restart

/-- FORCE_SCAN (rule R204). -/
def execForceScan (s : State) : Host.Outcome State Fault Refusal := .next (s.settle (forceScan s))

end Sys2Proof.Machine
end

