-- ==== Sys2Proof/Machine/Scheduler.lean ====
section
/-! DEFINITION. The transmit-timing scheduler (45_tx_scheduler.md) and the transmission around it (rule R260). -/

namespace Sys2Proof.Machine

open Sys2Proof

/-- How WAIT_UNTIL comes back: the window is missed, the target is now, or the pass is suspended (rule R280). -/
inductive WaitResult where
  | missed | onTime | suspended
deriving DecidableEq, Repr

/-- `rem = signed_W(adj -_W t0)` (rule R280). -/
def State.remaining (s : State) (target : Nat) (sf : Byte) : Int :=
  s.par.signedTime (s.par.subTime (adjustedTarget s.par target sf) s.clock)

/-- How a wait begun now comes back (rule R280). -/
def State.waitResult (s : State) (target : Nat) (sf : Byte) : WaitResult :=
  if s.remaining target sf < 0 then .missed
  else if s.remaining target sf = 0 then .onTime
  else .suspended

/-- The state of a wait begun now: E9 on a missed window, WAITING on a suspension (rules R280, R281). E9 gives the target as
the uW that it is, W bits (log entry 1). -/
def State.waitUntil (s : State) (target : Nat) (sf : Byte) : State :=
  match s.waitResult target sf with
  | .missed =>
    s.logEntry .txMissed [s.par.truncTime target, adjustedTarget s.par target sf, s.clock]
  | .onTime => s
  | .suspended => s.setPhase (.waiting (adjustedTarget s.par target sf))

/-- Key the transmitter and consume the request (rule R260). -/
def txKey (s : State) : Except FaultName State := do
  let t ← keyTx s
  .ok (t.consume.setState stTxDone)

/-- Discard the request whose window was missed and listen again (rules R260, R281). -/
def txDrop (s : State) : Except FaultName State := armListen s.consume

/-- The state in which EV_TX_RUN calls the scheduler: flags cleared, only TXDONE enabled (rule R260). -/
def State.txPrepare (s : State) : State := (s.clearIrq 0xFF).setIrqMask (irqMask .tx)

/-- The transmission of rule R260 up to its end or to the suspension. -/
def txRun (s : State) : Except FaultName State :=
  let t := s.txPrepare
  let u := t.waitUntil s.outbound.target s.outbound.sf
  match t.waitResult s.outbound.target s.outbound.sf with
  | .suspended => .ok u
  | .onTime => txKey u
  | .missed => if s.par.dropOnMiss then txDrop u else txKey u

/-- The end of a pass: `passActive` stays 1 only while the pass is suspended in the wait (rules R22, R190). -/
def State.endPass (s : State) : State := { s with passActive := s.txPhase != .idle }

/-- The resumption of a suspended pass: the wait is over, the transmitter is keyed, the pass ends (rules R260, R280, R283). -/
def State.resume (s : State) : State := s.settle ((txKey (s.setPhase .idle)).map State.endPass)

/-- WAIT_UNTIL (rule R280): `missed` is the result, unless the call is suspended. A suspended wait holds its pass, so
`passActive` is 1 (log entry 16). -/
def execWaitUntil (target : Nat) (sf : Byte) (s : State) : Host.Outcome State Fault Refusal :=
  .next (match s.waitResult target sf with
    | .missed => (s.waitUntil target sf).answer (.missed true)
    | .onTime => (s.waitUntil target sf).answer (.missed false)
    | .suspended => { s.waitUntil target sf with passActive := true })

end Sys2Proof.Machine
end

