-- ==== Sys2Proof/Machine/Transitions.lean ====
section
/-! DEFINITION. The transitions of the radio state machine (44_fsm_transitions.md): one action per EVAL row, and its meaning as
an operation of its own, which runs the row's rule to the end of its pass. A row's operand is the key it was selected by. -/

namespace Sys2Proof.Machine

open Sys2Proof

/-! ## What rows share -/

/-- ARM_SCANNER, then a radio state. -/
def armScannerInto (st : BitVec 3) (s : State) : Except FaultName State := do
  let t ← armScanner s
  .ok (t.setState st)

/-- `Log(E_UNEXPECTED_IRQ, {S, FLAGS})` (rule R239). -/
def State.logUnexpected (s : State) (key : BitVec 16) : State :=
  s.logEntry .unexpectedIrq [keyStateCode key, keyFlagByte key]

/-- Log E6 and recover (rules R239, R246, R256, R261, R268). -/
def unexpected (key : BitVec 16) (s : State) : Except FaultName State := recover (s.logUnexpected key)

/-- A rejected reception: log `{ch, sf}`, count it, clear the flags, listen again (rules R247, R248). -/
def rejectReception (code : LogCode) (s : State) : Except FaultName State :=
  armListen ((s.logEntry code [s.ch, s.sf.toNat]).countRejected.clearIrq 0xFF)

/-- A row run as an operation: its action, then the end of its pass (rules R190, R230; log entry 17). -/
def State.runToEnd (s : State) (r : Except FaultName State) : State := s.settle (r.map State.endPass)

/-! ## The actions of the rows -/

/-- EV_INIT (rule R231). -/
def rowInit (_key : BitVec 16) (s : State) : Except FaultName State :=
  armScannerInto stScan ((s.clearIrq 0xFF).setIrqMask 0x00).minSf

/-- EV_SCAN_DETECT (rule R232). -/
def rowScanDetect (_key : BitVec 16) (s : State) : Except FaultName State := .ok (s.armRxSingle.setState stRx)

/-- EV_SCAN_PROMOTE (rule R233). -/
def rowScanPromote (_key : BitVec 16) (s : State) : Except FaultName State := armScannerInto stCad s

/-- EV_SCAN_DONE_HOP (rule R234). -/
def rowScanDoneHop (_key : BitVec 16) (s : State) : Except FaultName State := armScanner s.advanceChannel

/-- EV_SCAN_STAY (rule R235). -/
def rowScanStay (_key : BitVec 16) (s : State) : Except FaultName State := armScanner s

/-- EV_SCAN_TXREQ (rule R236). -/
def rowScanTxreq (_key : BitVec 16) (s : State) : Except FaultName State := txRun (s.setState stTx)

/-- EV_SCAN_SOFTHOP (rule R237). -/
def rowScanSofthop (_key : BitVec 16) (s : State) : Except FaultName State := armScanner s.advanceChannel

/-- EV_SCAN_IDLE (rule R238). -/
def rowScanIdle (_key : BitVec 16) (s : State) : Except FaultName State := .ok s

/-- EV_SCAN_UNEXPECTED (rule R239). -/
def rowScanUnexpected (key : BitVec 16) (s : State) : Except FaultName State := unexpected key s

/-- EV_CAD_DETECT (rule R240). -/
def rowCadDetect (_key : BitVec 16) (s : State) : Except FaultName State := .ok (s.armRxSingle.setState stRx)

/-- EV_CAD_NEXT_SF (rule R241). -/
def rowCadNextSf (_key : BitVec 16) (s : State) : Except FaultName State := armScanner (s.setSf (s.sf + 1))

/-- EV_CAD_EXHAUSTED (rule R242). -/
def rowCadExhausted (_key : BitVec 16) (s : State) : Except FaultName State := armScannerInto stScan s.minSf

/-- EV_CAD_TXREQ (rule R243). -/
def rowCadTxreq (_key : BitVec 16) (s : State) : Except FaultName State := txRun (s.setState stTx)

/-- EV_CAD_SOFTHOP (rule R244). -/
def rowCadSofthop (_key : BitVec 16) (s : State) : Except FaultName State := armScannerInto stScan s.advanceChannel

/-- EV_CAD_IDLE (rule R245). -/
def rowCadIdle (_key : BitVec 16) (s : State) : Except FaultName State := .ok s

/-- EV_CAD_UNEXPECTED (rule R246). -/
def rowCadUnexpected (key : BitVec 16) (s : State) : Except FaultName State := unexpected key s

/-- EV_RX_CRCERR (rule R247). -/
def rowRxCrcerr (_key : BitVec 16) (s : State) : Except FaultName State := rejectReception .crcError s

/-- EV_RX_HDRINV (rule R248). -/
def rowRxHdrinv (_key : BitVec 16) (s : State) : Except FaultName State := rejectReception .headerInvalid s

/-- EV_RX_DONE (rule R249). -/
def rowRxDone (_key : BitVec 16) (s : State) : Except FaultName State := armListen (s.capturePacket.clearIrq 0xFF)

/-- EV_RX_TIMEOUT_HOP (rule R250). -/
def rowRxTimeoutHop (_key : BitVec 16) (s : State) : Except FaultName State := armListen s.advanceChannel

/-- EV_RX_TIMEOUT (rule R251). -/
def rowRxTimeout (_key : BitVec 16) (s : State) : Except FaultName State := armListen (s.clearIrq 0xFF)

/-- EV_RX_HDRSEEN (rule R252). -/
def rowRxHdrseen (_key : BitVec 16) (s : State) : Except FaultName State := .ok s

/-- EV_RX_TXREQ (rule R253). -/
def rowRxTxreq (_key : BitVec 16) (s : State) : Except FaultName State := txRun (s.setState stTx)

/-- EV_RX_SOFTTMO (rule R254). -/
def rowRxSofttmo (_key : BitVec 16) (s : State) : Except FaultName State := armListen s.advanceChannel

/-- EV_RX_IDLE (rule R255). -/
def rowRxIdle (_key : BitVec 16) (s : State) : Except FaultName State := .ok s

/-- EV_RX_UNEXPECTED (rule R256). -/
def rowRxUnexpected (key : BitVec 16) (s : State) : Except FaultName State := unexpected key s

/-- EV_TX_RUN (rule R260). -/
def rowTxRun (_key : BitVec 16) (s : State) : Except FaultName State := txRun s

/-- EV_TX_NOREQ (rule R261). -/
def rowTxNoreq (key : BitVec 16) (s : State) : Except FaultName State := unexpected key s

/-- EV_TXD_DONE (rule R263). -/
def rowTxdDone (_key : BitVec 16) (s : State) : Except FaultName State := armListen (s.countSent.clearIrq 0xFF)

/-- EV_TXD_TIMEOUT (rule R264). -/
def rowTxdTimeout (_key : BitVec 16) (s : State) : Except FaultName State :=
  .ok (s.logEntry .txdoneMissing [s.elapsed s.eventTime]).restart

/-- EV_TXD_WAIT (rule R265). -/
def rowTxdWait (_key : BitVec 16) (s : State) : Except FaultName State := .ok s

/-- EV_TXD_UNEXPECTED (rule R266). -/
def rowTxdUnexpected (key : BitVec 16) (s : State) : Except FaultName State := forceScan ((s.logUnexpected key).clearIrq 0xFF)

/-- EV_DEFAULT (rule R268). -/
def rowDefault (key : BitVec 16) (s : State) : Except FaultName State := unexpected key s

/-! ## The meanings -/

/-- EV_INIT (rule R231). -/
def execEvInit (key : BitVec 16) (s : State) : Host.Outcome State Fault Refusal :=
  .next (s.runToEnd (rowInit key s))

/-- EV_SCAN_DETECT (rule R232). -/
def execEvScanDetect (key : BitVec 16) (s : State) : Host.Outcome State Fault Refusal :=
  .next (s.runToEnd (rowScanDetect key s))

/-- EV_SCAN_PROMOTE (rule R233). -/
def execEvScanPromote (key : BitVec 16) (s : State) : Host.Outcome State Fault Refusal :=
  .next (s.runToEnd (rowScanPromote key s))

/-- EV_SCAN_DONE_HOP (rule R234). -/
def execEvScanDoneHop (key : BitVec 16) (s : State) : Host.Outcome State Fault Refusal :=
  .next (s.runToEnd (rowScanDoneHop key s))

/-- EV_SCAN_STAY (rule R235). -/
def execEvScanStay (key : BitVec 16) (s : State) : Host.Outcome State Fault Refusal :=
  .next (s.runToEnd (rowScanStay key s))

/-- EV_SCAN_TXREQ (rule R236). -/
def execEvScanTxreq (key : BitVec 16) (s : State) : Host.Outcome State Fault Refusal :=
  .next (s.runToEnd (rowScanTxreq key s))

/-- EV_SCAN_SOFTHOP (rule R237). -/
def execEvScanSofthop (key : BitVec 16) (s : State) : Host.Outcome State Fault Refusal :=
  .next (s.runToEnd (rowScanSofthop key s))

/-- EV_SCAN_IDLE (rule R238). -/
def execEvScanIdle (key : BitVec 16) (s : State) : Host.Outcome State Fault Refusal :=
  .next (s.runToEnd (rowScanIdle key s))

/-- EV_SCAN_UNEXPECTED (rule R239). -/
def execEvScanUnexpected (key : BitVec 16) (s : State) : Host.Outcome State Fault Refusal :=
  .next (s.runToEnd (rowScanUnexpected key s))

/-- EV_CAD_DETECT (rule R240). -/
def execEvCadDetect (key : BitVec 16) (s : State) : Host.Outcome State Fault Refusal :=
  .next (s.runToEnd (rowCadDetect key s))

/-- EV_CAD_NEXT_SF (rule R241). -/
def execEvCadNextSf (key : BitVec 16) (s : State) : Host.Outcome State Fault Refusal :=
  .next (s.runToEnd (rowCadNextSf key s))

/-- EV_CAD_EXHAUSTED (rule R242). -/
def execEvCadExhausted (key : BitVec 16) (s : State) : Host.Outcome State Fault Refusal :=
  .next (s.runToEnd (rowCadExhausted key s))

/-- EV_CAD_TXREQ (rule R243). -/
def execEvCadTxreq (key : BitVec 16) (s : State) : Host.Outcome State Fault Refusal :=
  .next (s.runToEnd (rowCadTxreq key s))

/-- EV_CAD_SOFTHOP (rule R244). -/
def execEvCadSofthop (key : BitVec 16) (s : State) : Host.Outcome State Fault Refusal :=
  .next (s.runToEnd (rowCadSofthop key s))

/-- EV_CAD_IDLE (rule R245). -/
def execEvCadIdle (key : BitVec 16) (s : State) : Host.Outcome State Fault Refusal :=
  .next (s.runToEnd (rowCadIdle key s))

/-- EV_CAD_UNEXPECTED (rule R246). -/
def execEvCadUnexpected (key : BitVec 16) (s : State) : Host.Outcome State Fault Refusal :=
  .next (s.runToEnd (rowCadUnexpected key s))

/-- EV_RX_CRCERR (rule R247). -/
def execEvRxCrcerr (key : BitVec 16) (s : State) : Host.Outcome State Fault Refusal :=
  .next (s.runToEnd (rowRxCrcerr key s))

/-- EV_RX_HDRINV (rule R248). -/
def execEvRxHdrinv (key : BitVec 16) (s : State) : Host.Outcome State Fault Refusal :=
  .next (s.runToEnd (rowRxHdrinv key s))

/-- EV_RX_DONE (rule R249). -/
def execEvRxDone (key : BitVec 16) (s : State) : Host.Outcome State Fault Refusal :=
  .next (s.runToEnd (rowRxDone key s))

/-- EV_RX_TIMEOUT_HOP (rule R250). -/
def execEvRxTimeoutHop (key : BitVec 16) (s : State) : Host.Outcome State Fault Refusal :=
  .next (s.runToEnd (rowRxTimeoutHop key s))

/-- EV_RX_TIMEOUT (rule R251). -/
def execEvRxTimeout (key : BitVec 16) (s : State) : Host.Outcome State Fault Refusal :=
  .next (s.runToEnd (rowRxTimeout key s))

/-- EV_RX_HDRSEEN (rule R252). -/
def execEvRxHdrseen (key : BitVec 16) (s : State) : Host.Outcome State Fault Refusal :=
  .next (s.runToEnd (rowRxHdrseen key s))

/-- EV_RX_TXREQ (rule R253). -/
def execEvRxTxreq (key : BitVec 16) (s : State) : Host.Outcome State Fault Refusal :=
  .next (s.runToEnd (rowRxTxreq key s))

/-- EV_RX_SOFTTMO (rule R254). -/
def execEvRxSofttmo (key : BitVec 16) (s : State) : Host.Outcome State Fault Refusal :=
  .next (s.runToEnd (rowRxSofttmo key s))

/-- EV_RX_IDLE (rule R255). -/
def execEvRxIdle (key : BitVec 16) (s : State) : Host.Outcome State Fault Refusal :=
  .next (s.runToEnd (rowRxIdle key s))

/-- EV_RX_UNEXPECTED (rule R256). -/
def execEvRxUnexpected (key : BitVec 16) (s : State) : Host.Outcome State Fault Refusal :=
  .next (s.runToEnd (rowRxUnexpected key s))

/-- EV_TX_RUN (rule R260). -/
def execEvTxRun (key : BitVec 16) (s : State) : Host.Outcome State Fault Refusal :=
  .next (s.runToEnd (rowTxRun key s))

/-- EV_TX_NOREQ (rule R261). -/
def execEvTxNoreq (key : BitVec 16) (s : State) : Host.Outcome State Fault Refusal :=
  .next (s.runToEnd (rowTxNoreq key s))

/-- EV_TXD_DONE (rule R263). -/
def execEvTxdDone (key : BitVec 16) (s : State) : Host.Outcome State Fault Refusal :=
  .next (s.runToEnd (rowTxdDone key s))

/-- EV_TXD_TIMEOUT (rule R264). -/
def execEvTxdTimeout (key : BitVec 16) (s : State) : Host.Outcome State Fault Refusal :=
  .next (s.runToEnd (rowTxdTimeout key s))

/-- EV_TXD_WAIT (rule R265). -/
def execEvTxdWait (key : BitVec 16) (s : State) : Host.Outcome State Fault Refusal :=
  .next (s.runToEnd (rowTxdWait key s))

/-- EV_TXD_UNEXPECTED (rule R266). -/
def execEvTxdUnexpected (key : BitVec 16) (s : State) : Host.Outcome State Fault Refusal :=
  .next (s.runToEnd (rowTxdUnexpected key s))

/-- EV_DEFAULT (rule R268). -/
def execEvDefault (key : BitVec 16) (s : State) : Host.Outcome State Fault Refusal :=
  .next (s.runToEnd (rowDefault key s))

end Sys2Proof.Machine
end

