-- ==== Sys2Proof/Machine/Pass.lean ====
section
/-! DEFINITION. The evaluation pass (43_fsm_pass.md rules R190 to R195) and bring-up (70_reset_and_hazards.md rule R372). -/

namespace Sys2Proof.Machine

open Sys2Proof

/-! ## The evaluation pass -/

/-- `execute row.rule` (rule R190). -/
def runRow (row : Row) (key : BitVec 16) (s : State) : Except FaultName State :=
  match row with
  | .init => rowInit key s
  | .scanDetect => rowScanDetect key s
  | .scanPromote => rowScanPromote key s
  | .scanDoneHop => rowScanDoneHop key s
  | .scanStay => rowScanStay key s
  | .scanTxreq => rowScanTxreq key s
  | .scanSofthop => rowScanSofthop key s
  | .scanIdle => rowScanIdle key s
  | .scanUnexpected => rowScanUnexpected key s
  | .cadDetect => rowCadDetect key s
  | .cadNextSf => rowCadNextSf key s
  | .cadExhausted => rowCadExhausted key s
  | .cadTxreq => rowCadTxreq key s
  | .cadSofthop => rowCadSofthop key s
  | .cadIdle => rowCadIdle key s
  | .cadUnexpected => rowCadUnexpected key s
  | .rxCrcerr => rowRxCrcerr key s
  | .rxHdrinv => rowRxHdrinv key s
  | .rxDone => rowRxDone key s
  | .rxTimeoutHop => rowRxTimeoutHop key s
  | .rxTimeout => rowRxTimeout key s
  | .rxHdrseen => rowRxHdrseen key s
  | .rxTxreq => rowRxTxreq key s
  | .rxSofttmo => rowRxSofttmo key s
  | .rxIdle => rowRxIdle key s
  | .rxUnexpected => rowRxUnexpected key s
  | .txRun => rowTxRun key s
  | .txNoreq => rowTxNoreq key s
  | .txdDone => rowTxdDone key s
  | .txdTimeout => rowTxdTimeout key s
  | .txdWait => rowTxdWait key s
  | .txdUnexpected => rowTxdUnexpected key s
  | .default => rowDefault key s

/-- The start of a pass: `passActive`, `pending` (rule R190). -/
def State.startPass (s : State) : State := { s with passActive := true, pending := false }

/-- The flag snapshot of a pass begun in `s` (rule R190). -/
def State.snapshotFlags (s : State) : Byte := s.startPass.regValue .irqFlags

/-- The state after the snapshot is read and the timestamps are re-baselined (rules R190, R193). -/
def State.passSampled (s : State) : State := (s.startPass.readReg .irqFlags).rebaseline

/-- The key of a pass begun in `s`: TMO, then X (rules R191 to R193). -/
def State.passKey (s : State) : BitVec 16 :=
  s.passSampled.key s.snapshotFlags s.passSampled.tmo (s.passSampled.secondary s.snapshotFlags)

/-- The state in which the row of a pass is executed: X's read is made and the event is stamped (rules R192, R194). -/
def State.passReady (s : State) : State :=
  (s.passSampled.secondaryStep s.snapshotFlags).stampEvent s.snapshotFlags

/-- A pass, from its start to its end or its suspension (rule R190). -/
def evalPass (s : State) : Except FaultName State :=
  (runRow (decodeKey s.passKey) s.passKey s.passReady).map State.endPass

/-- EVAL_PASS (rule R190). Where its precondition does not hold, no pass starts and the engine does not move (rules R195, R373;
93_implementation_defined.md I25). -/
def execEvalPass (s : State) : Host.Outcome State Fault Refusal :=
  .next (if s.passEnabled then s.settle (evalPass s) else s)

/-! ## Bring-up -/

/-- The writes of a list, in order: `InitWrites(ChipVariant)` (rule R372). -/
def State.writeAll (s : State) : List (BitVec 7 × Byte) → State
  | [] => s
  | (a, v) :: rest => (s.busWrite (a.setWidth 8) v).writeAll rest

/-- `old <- SpiRead(REG_OPMODE); SpiWrite(REG_OPMODE, old | LoRaModeBit)` (rule R372). -/
def State.setLoraMode (s : State) : State :=
  (s.readReg .opMode).writeReg .opMode (s.regValue .opMode ||| s.par.modes.loraBit)

/-- Bring-up past the identity check (rule R372). -/
def State.bringupConfigure (s : State) : State :=
  let t := ((s.setOpMode .sleep).setLoraMode.writeAll (PerVariant.pick s.par.initWrites s.par.variant)).setOpMode .standby
  { (t.stampNow.stampDone.setState stInit) with booted := true }

/-- BRINGUP's operation (rule R372). -/
def bringup (s : State) : Except FaultName State :=
  if !configValid s.numChannels s.cfg0 then .error .cfg0Invalid
  else if s.chipIdMatches then .ok s.checkChipId.bringupConfigure
  else .ok s.checkChipId

/-- BRINGUP (rule R372). Where it is not enabled the engine does not move. -/
def execBringup (s : State) : Host.Outcome State Fault Refusal :=
  .next (if s.bringupEnabled then s.settle (bringup s) else s)

end Sys2Proof.Machine
end

