-- ==== Sys2Proof/Machine/Spi.lean ====
section
/-! DEFINITION. The SPI register accessor (40_spi_accessor.md). -/

namespace Sys2Proof.Machine

open Sys2Proof

/-- SPI_READ (rule R130): the byte read is the result. -/
def execSpiRead (a : Byte) (s : State) : Host.Outcome State Fault Refusal :=
  .next (s.settle ((spiRead a s).map fun p => p.2.answer (.byte p.1)))

/-- SPI_WRITE (rule R131). -/
def execSpiWrite (a v : Byte) (s : State) : Host.Outcome State Fault Refusal :=
  .next (s.settle (spiWrite a v s))

/-- SPI_BURST_WRITE (rule R132). -/
def execSpiBurstWrite (a : Byte) (data : List Byte) (s : State) : Host.Outcome State Fault Refusal :=
  .next (s.settle (spiBurst a data s))

end Sys2Proof.Machine
end

