-- ==== Sys2Proof/Machine/Dispatch.lean ====
section
/-! DEFINITION. The dispatch: one arm per instruction, one direct call of its meaning. -/

namespace Sys2Proof.Machine

open Sys2Proof

def exec (i : Instr) (s : State) : Host.Outcome State Fault Refusal :=
  match i with
  | .spiRead a => Sys2Proof.Machine.execSpiRead a s
  | .spiWrite a v => Sys2Proof.Machine.execSpiWrite a v s
  | .spiBurstWrite a data => Sys2Proof.Machine.execSpiBurstWrite a data s
  | .setFrequency hz => Sys2Proof.Machine.execSetFrequency hz s
  | .setRate crc sf => Sys2Proof.Machine.execSetRate crc sf s
  | .setPower p => Sys2Proof.Machine.execSetPower p s
  | .setOpmode m => Sys2Proof.Machine.execSetOpmode m s
  | .setIq invert => Sys2Proof.Machine.execSetIq invert s
  | .clearIrq bits => Sys2Proof.Machine.execClearIrq bits s
  | .setIrqMask mask => Sys2Proof.Machine.execSetIrqMask mask s
  | .setDioMap k => Sys2Proof.Machine.execSetDioMap k s
  | .checkChipId => Sys2Proof.Machine.execCheckChipId s
  | .advanceChannel => Sys2Proof.Machine.execAdvanceChannel s
  | .evalPass => Sys2Proof.Machine.execEvalPass s
  | .armScanner => Sys2Proof.Machine.execArmScanner s
  | .armRxSingle => Sys2Proof.Machine.execArmRxSingle s
  | .armRxCont => Sys2Proof.Machine.execArmRxCont s
  | .armListen => Sys2Proof.Machine.execArmListen s
  | .keyTx => Sys2Proof.Machine.execKeyTx s
  | .recover => Sys2Proof.Machine.execRecover s
  | .restart => Sys2Proof.Machine.execRestart s
  | .forceScan => Sys2Proof.Machine.execForceScan s
  | .bringup => Sys2Proof.Machine.execBringup s
  | .waitUntil target sf => Sys2Proof.Machine.execWaitUntil target sf s
  | .capturePacket => Sys2Proof.Machine.execCapturePacket s
  | .irqEdge line => Sys2Proof.Machine.execIrqEdge line s
  | .submitTx req => Sys2Proof.Machine.execSubmitTx req s
  | .takePacket => Sys2Proof.Machine.execTakePacket s
  | .readStats => Sys2Proof.Machine.execReadStats s
  | .configure cfg => Sys2Proof.Machine.execConfigure cfg s
  | .readState => Sys2Proof.Machine.execReadState s
  | .reset cfg0 => Sys2Proof.Machine.execReset cfg0 s
  | .clockAdvance d => Sys2Proof.Machine.execClockAdvance d s
  | .evInit key => Sys2Proof.Machine.execEvInit key s
  | .evScanDetect key => Sys2Proof.Machine.execEvScanDetect key s
  | .evScanPromote key => Sys2Proof.Machine.execEvScanPromote key s
  | .evScanDoneHop key => Sys2Proof.Machine.execEvScanDoneHop key s
  | .evScanStay key => Sys2Proof.Machine.execEvScanStay key s
  | .evScanTxreq key => Sys2Proof.Machine.execEvScanTxreq key s
  | .evScanSofthop key => Sys2Proof.Machine.execEvScanSofthop key s
  | .evScanIdle key => Sys2Proof.Machine.execEvScanIdle key s
  | .evScanUnexpected key => Sys2Proof.Machine.execEvScanUnexpected key s
  | .evCadDetect key => Sys2Proof.Machine.execEvCadDetect key s
  | .evCadNextSf key => Sys2Proof.Machine.execEvCadNextSf key s
  | .evCadExhausted key => Sys2Proof.Machine.execEvCadExhausted key s
  | .evCadTxreq key => Sys2Proof.Machine.execEvCadTxreq key s
  | .evCadSofthop key => Sys2Proof.Machine.execEvCadSofthop key s
  | .evCadIdle key => Sys2Proof.Machine.execEvCadIdle key s
  | .evCadUnexpected key => Sys2Proof.Machine.execEvCadUnexpected key s
  | .evRxCrcerr key => Sys2Proof.Machine.execEvRxCrcerr key s
  | .evRxHdrinv key => Sys2Proof.Machine.execEvRxHdrinv key s
  | .evRxDone key => Sys2Proof.Machine.execEvRxDone key s
  | .evRxTimeoutHop key => Sys2Proof.Machine.execEvRxTimeoutHop key s
  | .evRxTimeout key => Sys2Proof.Machine.execEvRxTimeout key s
  | .evRxHdrseen key => Sys2Proof.Machine.execEvRxHdrseen key s
  | .evRxTxreq key => Sys2Proof.Machine.execEvRxTxreq key s
  | .evRxSofttmo key => Sys2Proof.Machine.execEvRxSofttmo key s
  | .evRxIdle key => Sys2Proof.Machine.execEvRxIdle key s
  | .evRxUnexpected key => Sys2Proof.Machine.execEvRxUnexpected key s
  | .evTxRun key => Sys2Proof.Machine.execEvTxRun key s
  | .evTxNoreq key => Sys2Proof.Machine.execEvTxNoreq key s
  | .evTxdDone key => Sys2Proof.Machine.execEvTxdDone key s
  | .evTxdTimeout key => Sys2Proof.Machine.execEvTxdTimeout key s
  | .evTxdWait key => Sys2Proof.Machine.execEvTxdWait key s
  | .evTxdUnexpected key => Sys2Proof.Machine.execEvTxdUnexpected key s
  | .evDefault key => Sys2Proof.Machine.execEvDefault key s

end Sys2Proof.Machine
end

