-- ==== Sys2Proof/Machine/Fetch.lean ====
section
/-! DEFINITION. What happens next: the agents' schedule (rules R20, R21, R196; log entry 9), from a state to the operation that
runs or to the state that results where no operation runs. -/

namespace Sys2Proof.Machine

open Sys2Proof

/-- What a step finds to do: an operation to run in a state, or a state already reached. -/
inductive Fetched where
  | run (i : Instr) (s : State)
  | done (s : State)
deriving DecidableEq, Repr

/-- A waiting host operation is enabled now (rules R21, R317, R346, R373). -/
def State.canRun (s : State) : Instr → Bool
  | .submitTx _ => s.hostReady
  | .takePacket => s.hostReady
  | .configure _ => s.hostReady
  | .readStats => s.statsReady
  | _ => true

/-- The first operation of a list that a test accepts, and the list without it. -/
def takeFirst (p : Instr → Bool) : List Instr → Option (Instr × List Instr)
  | [] => none
  | i :: rest => if p i then some (i, rest) else (takeFirst p rest).map fun q => (q.1, i :: q.2)

/-- The FSM engine's own step: it resumes a released pass, else brings the block up, else starts a pass, where that is
enabled; else it does not move (rules R190, R196, R283, R372). -/
def State.engineStep (s : State) : Fetched :=
  if s.engineFree then
    if s.bringupEnabled then .run .bringup s
    else if s.passEnabled then .run .evalPass s
    else .done s
  else if s.txPhase = .released ∧ s.halted = false ∧ s.faults = [] then .done s.resume
  else .done s

/-- The operations that are an agent's own: the clock's step (rules R20, R40), the edge that the front end latches, the chip
raises and the host's interface carries (rules R20, R100, R300), the host's operations and RESET (rules R20, R100, R370), and the
FSM engine's, which are every one that is not external (rules R100, R135). -/
def Agent.presents (ag : Agent) : Instr → Bool
  | .clockAdvance _ => ag == .clock
  | .irqEdge _ => ag == .frontEnd || ag == .chip || ag == .host
  | .submitTx _ => ag == .host
  | .takePacket => ag == .host
  | .readStats => ag == .host
  | .configure _ => ag == .host
  | .readState => ag == .host
  | .reset _ => ag == .host
  | _ => ag == .fsmEngine

/-- An agent presents a frame. One of the FSM engine's side is refused with REFUSE_INTERNAL from any other agent (rules R103,
R381; log entry 18) and does nothing while the engine cannot move (rules R195, R283, R331). A frame that decodes to no
operation is refused with REFUSE_BAD_OP, whoever presents it (rules R102, R103). An operation of the external interface from an
agent that does not have it is no step of that agent (rule R20): it is passed over and changes nothing. That outcome, and who
has which operation where rule R100 says "host/env", are the model's choice (DESIGN CHOICE, log entry 21). -/
def State.present (s : State) (ag : Agent) (f : Frame) : Fetched :=
  if f.internal && ag != .fsmEngine then .done (s.refuse .internal)
  else if f.internal && !s.engineFree then .done s
  else
    match decode f with
    | .ok i => if ag.presents i then .run i s else .done s
    | .error _ => .done (s.refuse .badOp)

/-- One input of the schedule. -/
def State.receive (s : State) : Input → Fetched
  | .frame ag f => s.present ag f
  | .engine => s.engineStep
  | .answer addr v => .done { s with chipAnswers := s.chipAnswers ++ [(addr, v)] }

/-- What comes next: a waiting host operation that is enabled now, else the next input, else the FSM engine's own step. -/
def State.fetch (s : State) : Fetched :=
  match takeFirst s.canRun s.waiting with
  | some (i, rest) => .run i { s with waiting := rest }
  | none =>
    match s.inbox with
    | x :: rest => ({ s with inbox := rest } : State).receive x
    | [] => s.engineStep

/-! ## The host's placed instruction -/

/-- The agent that presents a frame: the interrupt front end its edge, the clock its step, the FSM engine its own operations,
the host the rest (rules R20, R100). -/
def agentOf (f : Frame) : Agent :=
  match f with
  | .op word _ =>
    if opCode word = 0x80 then .frontEnd
    else if opCode word = 0x87 then .clock
    else if f.internal then .fsmEngine
    else .host
  | _ => .fsmEngine

/-- Make a frame's operation the enabled one: no wait is in progress, no model fault is recorded, and the block has booted,
except for BRINGUP, whose own condition is the opposite (rules R21, R190, R346, R372, R373). An edge, a clock step, READ_STATE
and RESET are enabled in every state (rule R317). -/
def State.enableFor (s : State) (f : Frame) : State :=
  let free : State := { s with passActive := false, txPhase := .idle, halted := false, faults := [], booted := true }
  match f with
  | .op word _ =>
    if opCode word = 0x49 then { free with booted := false }
    else if opCode word = 0x80 || opCode word = 0x85 || opCode word = 0x86 || opCode word = 0x87 then s
    else free
  | _ => free

/-- The frame of a table word is the one next input, presented by its agent, and its operation is enabled (log entry 3). -/
def State.placeFrame (s : State) (f : Frame) : State :=
  { s.enableFor f with waiting := [], inbox := [.frame (agentOf f) f] }

end Sys2Proof.Machine
end

