-- ==== Sys2Proof/Machine/Claims.lean ====
section
/-! DEFINITION. The vocabulary of the claims: the bus transactions of each sequence as one list, and the state each sequence
leaves in closed form, read from the rules' lists and not from the operations' pseudocode. -/

namespace Sys2Proof.Machine

open Sys2Proof

/-! ## Transactions -/

/-- A write of a chip register, as the event history holds it (rule R70). -/
def State.wrote (s : State) (r : Reg) (v : Byte) : SpiEvent := ⟨.write, s.regByte r, [v]⟩

/-- A read of a chip register that returned `v`. -/
def State.didRead (s : State) (r : Reg) (v : Byte) : SpiEvent := ⟨.read, s.regByte r, [v]⟩

/-- The two transactions of SET_OPMODE when the read returns `old` (rule R150). -/
def State.modeEvents (s : State) (old : Byte) (m : Mode) : List SpiEvent :=
  [s.didRead .opMode old, s.wrote .opMode ((old &&& ~~~s.par.modes.mask) ||| modeCode s.par.modes m)]

/-- The three writes of SET_FREQUENCY (rules R62, R140). -/
def State.frequencyEvents (s : State) (hz : BitVec 32) : List SpiEvent :=
  [s.wrote .frfMsb (BitVec.ofNat 8 (hz.toNat * 2 ^ 19 / 32000000 / 65536)),
   s.wrote .frfMid (BitVec.ofNat 8 (hz.toNat * 2 ^ 19 / 32000000 / 256)),
   s.wrote .frfLsb (BitVec.ofNat 8 (hz.toNat * 2 ^ 19 / 32000000))]

/-- The four writes of SET_RATE, none for an SF out of range (rules R142, R143). -/
def State.rateEvents (s : State) (sf : Byte) (crc : Bool) : List SpiEvent :=
  if 7 ≤ sf.toNat ∧ sf.toNat ≤ 12 then
    [s.wrote .modemConfig1 (rateEntry s.par sf.toNat crc).mc1, s.wrote .modemConfig2 (rateMc2 s.par sf crc),
     s.wrote .modemConfig3 (rateEntry s.par sf.toNat crc).mc3, s.wrote .symbTimeoutLsb (symbTimeout s.par sf.toNat)]
  else []

/-- The log entry of SET_RATE: E8 for an SF out of range, else none (rule R143). -/
def State.rateLog (s : State) (sf : Byte) : List LogEntry :=
  if 7 ≤ sf.toNat ∧ sf.toNat ≤ 12 then [] else [⟨.sfRange, [sf.toNat], s.clock⟩]

/-- The transactions that ARM_SCANNER and ARM_RX_CONT share, at an SF, when the mode register reads `old` (rules R200, R202). -/
def State.frontEvents (s : State) (sf : BitVec 4) (old : Byte) : List SpiEvent :=
  s.modeEvents old .standby ++ [s.wrote .irqFlags 0xFF] ++ s.frequencyEvents (s.planAt s.ch).uplinkFrequencyHz ++
    s.rateEvents (sf.setWidth 8) s.par.rxCrcFlag ++ [s.wrote .invertIq (iqValue s.par false)]

/-- The transactions of an arming sequence at an SF, for a listening kind and a mode (rules R200, R202). -/
def State.armEvents (s : State) (sf : BitVec 4) (k : DioKind) (m : Mode) (old1 old2 : Byte) : List SpiEvent :=
  s.frontEvents sf old1 ++ [s.wrote .dioMapping1 (dioValue s.par.dioMap k), s.wrote .irqFlagsMask (irqMask k)] ++
    s.modeEvents old2 m

/-- What the first and the second of two successive reads of the mode register return. -/
def State.opMode1 (s : State) : Byte := s.regValue .opMode
def State.opMode2 (s : State) : Byte := (s.readReg .opMode).regValue .opMode

/-- The chip oracle after two reads of the mode register; every other field is as before. -/
def State.twoModeReads (s : State) : State :=
  { s with
    chipAnswers := ((s.readReg .opMode).readReg .opMode).chipAnswers
    draws := ((s.readReg .opMode).readReg .opMode).draws }

/-! ## States in closed form -/

/-- The state that ARM_SCANNER leaves (rule R200). -/
def State.scannerArmed (s : State) : State :=
  { s.twoModeReads with
    modeShadow := .known .cad
    eventTime := s.clock
    doneTime := s.clock
    history := s.history ++ s.armEvents s.sf .cad .cad s.opMode1 s.opMode2
    log := s.log ++ s.rateLog (s.sf.setWidth 8) }

/-- The state that ARM_RX_CONT leaves (rule R202). -/
def State.receiverArmed (s : State) : State :=
  { s.twoModeReads with
    sf := s.cfgSF
    modeShadow := .known .rxCont
    eventTime := s.clock
    history := s.history ++ s.armEvents s.cfgSF .rx .rxCont s.opMode1 s.opMode2
    log := s.log ++ s.rateLog (s.cfgSF.setWidth 8) }

/-- The state that ARM_LISTEN leaves: SCAN at the channel's minimum SF in scanner mode, else RX at the configured SF
(rule R203). -/
def State.listening (s : State) : State :=
  if s.cfgHop || s.cfgCad then
    (s.setSf (s.planAt s.ch).minSF).scannerArmed.setState 1
  else s.receiverArmed.setState 3

/-- The state that ARM_RX_SINGLE leaves (rule R201). -/
def State.singleArmed (s : State) : State :=
  { s with
    lastRssi := s.regValue .rssiValue
    modeShadow := .known .rxSingle
    eventTime := s.clock
    history := s.history ++ [s.wrote .dioMapping1 s.par.dioMap.rx, s.didRead .rssiValue (s.regValue .rssiValue),
      s.wrote .irqFlags 0xFF, s.wrote .irqFlagsMask 0x0F] ++
      s.modeEvents ((s.readReg .rssiValue).regValue .opMode) .rxSingle
    chipAnswers := ((s.readReg .rssiValue).readReg .opMode).chipAnswers
    draws := ((s.readReg .rssiValue).readReg .opMode).draws }

/-- The transactions of KEY_TX (rule R205). -/
def State.keyEvents (s : State) : List SpiEvent :=
  s.modeEvents s.opMode1 .standby ++ s.frequencyEvents s.outbound.freq ++ s.rateEvents s.outbound.sf s.outbound.crc ++
    [s.wrote .paConfig (paValue s.par s.outbound.power), s.wrote .invertIq (iqValue s.par s.outbound.iq),
     s.wrote .payloadLength s.outbound.len, s.wrote .fifoAddrPtr s.par.txFifoBase,
     ⟨.burst, s.regByte .fifo, s.outbound.payload.take s.outbound.len.toNat⟩,
     s.wrote .dioMapping1 s.par.dioMap.tx] ++ s.modeEvents s.opMode2 .tx

/-- The state that KEY_TX leaves (rule R205). -/
def State.keyed (s : State) : State :=
  { s.twoModeReads with
    modeShadow := .known .tx
    eventTime := s.clock
    history := s.history ++ s.keyEvents
    log := s.log ++ s.rateLog s.outbound.sf }

/-- The outbound slot holds a request that can be keyed: its word fits 24 bits and it has a byte to send (rule R302). -/
def State.keyable (s : State) : Prop :=
  s.outbound.freq.toNat < 1024000000 ∧ 1 ≤ s.outbound.len.toNat ∧ s.outbound.len.toNat ≤ s.outbound.payload.length

/-- The state that RESTART leaves (rule R207). -/
def State.restarted (s : State) : State :=
  { s.twoModeReads with
    modeShadow := .known .standby
    radioState := 0
    history := s.history ++ s.modeEvents s.opMode1 .sleep ++ s.modeEvents s.opMode2 .standby ++
      [s.wrote .irqFlags 0xFF, s.wrote .irqFlagsMask 0x00] }

/-- A state with transactions appended to its event history and entries appended to its log. -/
def State.appended (s : State) (events : List SpiEvent) (entries : List LogEntry) : State :=
  { s with history := s.history ++ events, log := s.log ++ entries }

/-- A state with a write of a chip register appended to the event history. -/
def State.andWrote (s : State) (r : Reg) (v : Byte) : State := { s with history := s.history ++ [s.wrote r v] }

/-- The transactions of the bring-up past the identity check, in which the mode register's three reads return `old1`, `old2` and
`old3` (rule R372). -/
def State.bringupEvents (s : State) (old1 old2 old3 : Byte) : List SpiEvent :=
  s.modeEvents old1 .sleep ++ [s.didRead .opMode old2, s.wrote .opMode (old2 ||| s.par.modes.loraBit)] ++
    (PerVariant.pick s.par.initWrites s.par.variant).map (fun w => ⟨.write, w.1.setWidth 8, [w.2]⟩) ++
    s.modeEvents old3 .standby

/-- The state that a successful BRINGUP leaves (rule R372). -/
def State.broughtUp (s : State) : State :=
  let r0 := s.readReg .version
  let r1 := r0.readReg .opMode
  let r2 := r1.readReg .opMode
  let r3 := r2.readReg .opMode
  { s with
    modeShadow := .known .standby
    eventTime := s.clock
    doneTime := s.clock
    radioState := 0
    booted := true
    history := s.history ++ [s.didRead .version (s.regValue .version)] ++
      s.bringupEvents (r0.regValue .opMode) (r1.regValue .opMode) (r2.regValue .opMode)
    chipAnswers := r3.chipAnswers
    draws := r3.draws }

/-- The state that CAPTURE_PACKET leaves (rules R310 to R316): four register reads, the pointer write, one FIFO read for each
byte, the log entry of an oversize count, the slot and the counters. -/
def State.captured (s : State) : State :=
  let r1 := s.readReg .pktSnrValue
  let r2 := r1.readReg .pktRssiValue
  let r3 := r2.readReg .rxNbBytes
  let r4 := r3.readReg .fifoRxCurrentAddr
  let snr := s.regValue .pktSnrValue
  let rssi := r1.regValue .pktRssiValue
  let nb := r2.regValue .rxNbBytes
  let base := r3.regValue .fifoRxCurrentAddr
  let n := min nb.toNat 128
  { s with
    inbound := {
      payload := r4.drainBytes n ++ s.inbound.payload.drop n
      len := n
      rssi := (rssi.toNat : Int) - (match s.par.variant with | .a => 139 | .b => 157)
      snr := packetSnr s.par.snrRounding snr
      sf := s.sf
      ch := s.ch
      time := s.clock }
    inValid := true
    stats := { s.stats with
      msgTotal := s.stats.msgTotal + 1
      msgOk := s.stats.msgOk + 1
      okPerSf := if 7 ≤ s.sf.toNat ∧ s.sf.toNat ≤ 12 then s.stats.okPerSf.modify (s.sf.toNat - 7) (· + 1) else s.stats.okPerSf
      okPerCh := s.stats.okPerCh.modify s.ch (· + 1) }
    log := s.log ++ if 128 < nb.toNat then [⟨.payloadOversize, [nb.toNat], s.clock⟩] else []
    history := s.history ++ [s.didRead .pktSnrValue snr, s.didRead .pktRssiValue rssi, s.didRead .rxNbBytes nb,
      s.didRead .fifoRxCurrentAddr base, s.wrote .fifoAddrPtr base] ++ (r4.drainBytes n).map (s.didRead .fifo)
    chipAnswers := (r4.drain n).chipAnswers
    draws := (r4.drain n).draws }

/-! ## The scheduler, in closed form -/

/-- The adjusted target of a request (rule R282). -/
def State.targetOf (s : State) (target : Nat) (sf : Byte) : Nat :=
  (target + s.par.txDelay + (if sf = 7 then s.par.sf7Extra else 0)) % 2 ^ s.par.timeBits

/-- The time that remains until a target: the difference to the clock, read as a signed W-bit value (rules R9, R280). -/
def State.timeLeft (s : State) (target : Nat) (sf : Byte) : Int :=
  Int.bmod ((s.targetOf target sf : Int) - s.clock) (2 ^ s.par.timeBits)

/-- The distance of the clock to a time, modulo `2^W` (rules R9, R283, R284). -/
def State.distanceTo (s : State) (t : Nat) : Int := ((t : Int) - s.clock) % 2 ^ s.par.timeBits

/-- The state in which a transmission calls the scheduler (rule R260). -/
def State.txListening (s : State) : State := (s.andWrote .irqFlags 0xFF).andWrote .irqFlagsMask 0xF7

/-- The log entry of a missed window (rules R280, R281). -/
def State.missedEntry (s : State) (target : Nat) (sf : Byte) : LogEntry :=
  ⟨.txMissed, [target % 2 ^ s.par.timeBits, s.targetOf target sf, s.clock], s.clock⟩

/-- The state that the keying of a request leaves: TX_DONE, the request consumed (rules R205, R260). -/
def State.transmitting (s : State) : State := { s.keyed with outValid := false, radioState := 5 }

/-- What a transmission comes to, up to the end of its pass or its suspension (rules R260, R280, R281). -/
def State.transmission (s : State) : State :=
  let t := s.txListening
  let wait := s.timeLeft s.outbound.target s.outbound.sf
  if 0 < wait then { t with txPhase := .waiting (s.targetOf s.outbound.target s.outbound.sf) }
  else if wait = 0 then t.transmitting
  else
    let u := t.appended [] [s.missedEntry s.outbound.target s.outbound.sf]
    if s.par.dropOnMiss then ({ u with outValid := false } : State).listening else u.transmitting

/-- A state at the end of its pass: `passActive` is 1 only while a wait lasts (rule R190). -/
def State.passEnded (s : State) : State := { s with passActive := s.txPhase != .idle }

/-- A state with an entry appended to its log, at its clock's time (rule R345). -/
def State.logged (s : State) (code : LogCode) (info : List Nat) : State :=
  { s with log := s.log ++ [⟨code, info, s.clock⟩] }

/-- The next channel of the plan, at its minimum SF (rule R170). -/
def State.hopped (s : State) : State :=
  { s with ch := (s.ch + 1) % s.numChannels, sf := (s.planAt ((s.ch + 1) % s.numChannels)).minSF }

/-- The state that the recovery from an unexpected key leaves (rules R206, R239). -/
def State.recovered (s : State) (key : BitVec 16) : State :=
  (((s.logged .unexpectedIrq [key.toNat / 2 ^ 13, key.toNat % 2 ^ 8]).andWrote .irqFlags 0xFF).andWrote
    .irqFlagsMask 0x00).listening

/-- The scanner at the current channel's minimum SF, in SCAN (rules R203, R204). -/
def State.scanning (s : State) : State := (s.setSf (s.planAt s.ch).minSF).scannerArmed.setState 1

/-- A host operation is enabled: no pass is in progress, no model fault is recorded, and the block has booted or is halted
(rules R21, R317, R346, R373). -/
def State.hostTurn (s : State) : Prop := s.passActive = false ∧ s.faults = [] ∧ (s.booted = true ∨ s.halted = true)

/-- A host operation of the kind that can wait is enabled: `hostTurn`, or, for READ_STATS, without bring-up (rules R21, R317,
R346, R373; log entry 20). -/
def State.enabledNow (s : State) (i : Instr) : Prop := s.hostTurn ∨ (i = .readStats ∧ s.passActive = false ∧ s.faults = [])

/-- The host's answer `r` to an operation that changes nothing else (rule R317). -/
def State.answered (s : State) (r : OpResult) : State := { s with result := r }

/-- No waiting host operation is enabled, and `rest` is the schedule behind the next thing to happen, `x` (log entry 9). -/
def State.nextIs (s : State) (x : Input) (rest : List Input) : Prop :=
  takeFirst s.canRun s.waiting = none ∧ s.inbox = x :: rest

/-- No waiting host operation is enabled, and the FSM engine is to move: its step is scheduled, or nothing is. -/
def State.engineTurn (s : State) (rest : List Input) : Prop :=
  takeFirst s.canRun s.waiting = none ∧ (s.inbox = .engine :: rest ∨ s.inbox = [] ∧ rest = [])

end Sys2Proof.Machine
end

