-- ==== Sys2Proof/Safety.lean ====
section
/-! DEFINITION. What counts as a safe run, in the terms of the claims: which operations only the FSM engine issues, which
schedules the spec's agents can make, and the invariant of the states that such a schedule reaches. -/

namespace Sys2Proof.Machine

open Sys2Proof

/-- The operations that only the FSM engine issues: the bus transactions, the codes 0x20 to 0x60, and the EVAL rows (rules R100,
R103, R135). The others are the block's external interface. -/
def engineOnly : Instr → Bool
  | .irqEdge _ | .submitTx _ | .takePacket | .readStats | .configure _ | .readState | .reset _ | .clockAdvance _ => false
  | _ => true

/-- A host operation that can wait (rule R317). -/
def canWait : Instr → Bool
  | .submitTx _ | .takePacket | .readStats | .configure _ => true
  | _ => false

/-- The step of an agent that the spec has (rule R20): the engine's own step, a chip answer, or a frame that does not come from
the engine. Only the rules of a pass issue the engine's operations, so no schedule of the spec holds one as a frame
(rule R100). -/
def ordinaryInput : Input → Bool
  | .frame ag _ => ag != .fsmEngine
  | .engine => true
  | .answer _ _ => true

/-- The schedule and the waiting operations are ones that the spec's agents can make (rules R20, R21, R100). -/
def State.ordinarySchedule (s : State) : Prop :=
  (∀ x ∈ s.inbox, ordinaryInput x = true) ∧ ∀ i ∈ s.waiting, canWait i = true

/-- A spreading factor in 7..12 (rule R24). -/
def legalSf (sf : BitVec 4) : Prop := 7 ≤ sf.toNat ∧ sf.toNat ≤ 12

/-- The control point is legal (rules R22, R23, R269): no unknown state; a pass is suspended exactly while a wait lasts, and the
state TX is seen exactly then; a suspended pass holds a request, in a booted block that is not halted. -/
def State.legalControl (s : State) : Prop :=
  s.radioState.toNat ≤ 5 ∧ (s.passActive = true ↔ s.txPhase ≠ .idle) ∧ (s.radioState = stTx ↔ s.txPhase ≠ .idle) ∧
    (s.txPhase ≠ .idle → s.outValid = true ∧ s.booted = true) ∧ (s.booted = true → s.halted = false)

/-- The configuration is legal once `Cfg0` passes bring-up's checks, which a booted block's does (rules R24 to R26, R31, R172,
R305, R372). -/
def State.legalConfig (s : State) : Prop :=
  (s.booted = true → configValid s.numChannels s.cfg0 = true) ∧
    (configValid s.numChannels s.cfg0 = true →
      s.ch < s.numChannels ∧ legalSf s.cfgSF ∧ (s.cfgHop = true → 3 ≤ s.numChannels) ∧ (s.cfgHop = false → s.ch = 0))

/-- The slots and the counters have their forms (rules R35 to R37). -/
def State.legalSlots (s : State) : Prop :=
  (s.outValid = true → s.keyable) ∧ s.inbound.len ≤ 128 ∧ s.inbound.payload.length = 128 ∧ s.stats.okPerSf.length = 6 ∧
    s.stats.okPerCh.length = s.numChannels ∧ s.stats.sentPerCh.length = s.numChannels

/-- The times and the indexes fit their registers: W bits, and the width of an index (rules R25, R26, R33, R35, R36, R40,
R345). -/
def State.legalWidths (s : State) : Prop :=
  (s.clock < 2 ^ s.par.timeBits ∧ s.eventTime < 2 ^ s.par.timeBits ∧ s.doneTime < 2 ^ s.par.timeBits ∧
    s.inbound.time < 2 ^ s.par.timeBits ∧ s.outbound.target < 2 ^ s.par.timeBits ∧
    (∀ adj, s.txPhase = .waiting adj → adj < 2 ^ s.par.timeBits) ∧ ∀ e ∈ s.log, e.t < 2 ^ s.par.timeBits) ∧
  s.ch < 2 ^ indexBits s.numChannels ∧ s.cfgCh < 2 ^ indexBits s.numChannels ∧
    s.inbound.ch < 2 ^ indexBits s.numChannels

/-- The chip's last commanded mode agrees with the radio state: the scanner in SCAN and CAD, a receiver in RX, the transmitter
and no receiver in TX_DONE (rules R232 to R266, R388). -/
def State.legalMode (s : State) : Prop :=
  (s.radioState = stScan ∨ s.radioState = stCad → s.modeShadow = .known .cad) ∧
    (s.radioState = stRx → s.modeShadow = .known .rxSingle ∨ s.modeShadow = .known .rxCont) ∧
    (s.radioState = stTxDone → s.modeShadow = .known .tx)

/-- No model fault but the one of an invalid `Cfg0`, and that one only in a block that has not booted (rule R346, "reachable
from reset"). -/
def State.legalFaults (s : State) : Prop :=
  (∀ f ∈ s.faults, f = .cfg0Invalid) ∧ (s.faults ≠ [] → s.booted = false)

/-- The invariant of every run whose schedule the spec's agents make. -/
structure State.Legal (s : State) : Prop where
  schedule : s.ordinarySchedule
  control : s.legalControl
  sf : legalSf s.sf
  config : s.legalConfig
  slots : s.legalSlots
  widths : s.legalWidths
  mode : s.legalMode
  faults : s.legalFaults

end Sys2Proof.Machine
end

