-- ==== Sys2Proof/Certificates/Slice0/Obligations.lean ====
section
/-! DEFINITION. The statements for the provers. A statement of an operation's result gives the whole next state, so it is that
operation's frame and its completion as well. -/

open Sys2Proof Sys2Proof.Machine

/-! ## Encoding -/

/-- Decoding what the encoder writes gives the operation back, for every well-formed operation with every operand at every
value that its encoding admits (rules R90, R95, R96, R100). -/
def Obligations.DecodeInvertsEncode : Prop :=
  ∀ i : Instr, i.wf = true → decode (encode i) = .ok i

/-- Every accepted frame is a well-formed operation's, and is the frame that the encoder writes for it, but for the data byte
of a read, which the chip drives (rules R90, R102, R103). For a key of format EVAL, well-formedness is the condition of the
row in rule R101. -/
def Obligations.AcceptedFrameIsReEncoded : Prop :=
  ∀ (f : Frame) (i : Instr), decode f = .ok i →
    i.wf = true ∧ (encode i = f ∨ ∃ a v : Byte, f = .spi false [a, v] ∧ i = .spiRead a ∧ encode i = .spi false [a, 0])

/-- Decoding is unambiguous: every key of format EVAL selects exactly one row, whose condition it meets, and at most one row
of format OP matches a word; a word that matches none is no operation, with any record (rules R95, R101, R102). -/
def Obligations.DecodingIsUnambiguous : Prop :=
  (∀ k : BitVec 16, ∃ i : Instr, decode (.eval k) = .ok i ∧ encode i = .eval k ∧ i.wf = true ∧
    ∀ j : Instr, encode j = .eval k → j.wf = true → j = i) ∧
  (∀ (w : BitVec 16) (n m : OpName), n.matches w = true → m.matches w = true → n = m) ∧
  ∀ (w : BitVec 16) (r : OperandRecord), (∀ n : OpName, n.matches w = false) → ∃ e, decode (.op w r) = .error e

/-- Words written out from the encoding tables decode to the operations they stand for: one for each family (rules R90, R95,
R100, R101). -/
def Obligations.WrittenOutWordsDecode : Prop :=
  decode (.spi false [0x12, 0x04]) = .ok (.spiRead 0x12) ∧
  decode (.spi false [0x92, 0xFF]) = .ok (.spiWrite 0x12 0xFF) ∧
  decode (.spi true [0x80, 0x01, 0x02, 0x03]) = .ok (.spiBurstWrite 0x00 [0x01, 0x02, 0x03]) ∧
  decode (.op 0x2101 (.rate 9)) = .ok (.setRate true 9) ∧
  decode (.op 0x2307 .empty) = .ok (.setOpmode .cad) ∧
  decode (.op 0x3000 .empty) = .ok .advanceChannel ∧
  decode (.op 0x4500 .empty) = .ok .keyTx ∧
  decode (.op 0x5000 (.wait 1000 8)) = .ok (.waitUntil 1000 8) ∧
  decode (.op 0x6000 .empty) = .ok .capturePacket ∧
  decode (.op 0x8001 .empty) = .ok (.irqEdge 1) ∧
  decode (.op 0x8700 (.tick 32)) = .ok (.clockAdvance 32) ∧
  decode (.eval 0x2604) = .ok (.evScanDoneHop 0x2604) ∧
  decode (.eval 0x5204) = .ok (.evCadExhausted 0x5204) ∧
  decode (.eval 0x7250) = .ok (.evRxDone 0x7250) ∧
  decode (.eval 0x8100) = .ok (.evTxRun 0x8100) ∧
  decode (.eval 0xA800) = .ok (.evTxdTimeout 0xA800) ∧
  decode (.eval 0xE0FF) = .ok (.evDefault 0xE0FF)

/-! ## The schedule -/

/-- A step runs the decoded operation: where the next frame decodes to a well-formed operation that its agent has, and, if it is
the FSM engine's, the engine can move, the step is the operation's meaning in the state whose schedule has moved past it (log
entries 9, 18, 21 and 24: the schedule, and who may present what and when, are the model's). -/
def Obligations.StepRunsDecodedOperation : Prop :=
  ∀ (s : State) (ag : Agent) (f : Frame) (rest : List Input) (i : Instr),
    s.nextIs (.frame ag f) rest → decode f = .ok i → i.wf = true → ag.presents i = true →
      (f.internal = true → s.halted = false ∧ s.faults = [] ∧ s.txPhase = .idle) →
        step s = exec i { s with inbox := rest }

/-- The engine's turn: in a state where it can move, it brings the block up if that has not been done, and starts a pass if
the block has booted (rules R190, R196, R372). The choice of the moment is the model's schedule (log entry 9). -/
def Obligations.EngineTurnRunsBringupOrPass : Prop :=
  ∀ (s : State) (rest : List Input), s.engineTurn rest → s.halted = false → s.faults = [] → s.txPhase = .idle →
    (s.booted = false → step s = exec .bringup { s with inbox := rest }) ∧
    (s.booted = true → s.passActive = false → step s = exec .evalPass { s with inbox := rest })

/-- Refused frames: one of the FSM engine's side from another agent is answered with REFUSE_INTERNAL and changes nothing else;
a word of the external interface that is no operation (an unassigned code, a reserved bit, line 3, a record of the wrong shape)
is answered with REFUSE_BAD_OP, appends E_BAD_OP and changes nothing else (rules R103, R347, R381); an operation of the external
interface that its agent does not have changes nothing. That the entry carries no values, that refusals come in every state and
before the other checks, that a wrong record is refused, and the last clause are the model's choices (log entries 4, 9, 18, 19
and 21). -/
def Obligations.RefusedFramesChangeNothingElse : Prop :=
  ∀ (s : State) (ag : Agent) (f : Frame) (rest : List Input), s.nextIs (.frame ag f) rest →
    (f.internal = true → ag ≠ .fsmEngine → step s = .next { s with inbox := rest, result := .refused .internal }) ∧
    (f.internal = false → ∀ e : DecodeError, decode f = .error e → step s = .next { s with
      inbox := rest
      log := s.log ++ [⟨.badOp, [], s.clock⟩]
      result := .refused .badOp }) ∧
    (f.internal = false → ∀ i : Instr, decode f = .ok i → ag.presents i = false → step s = .next { s with inbox := rest })

/-- While the engine is blocked (halted, a model fault recorded, or inside the transmit wait), no step issues a transaction
(rules R195, R283, R331, R346). The premise says what the waiting list holds in every run (log entry 10). That a RESET keeps
the event history is the model's choice (log entry 13). -/
def Obligations.BlockedEngineIssuesNoTransaction : Prop :=
  ∀ s t : State, (∀ i ∈ s.waiting, canWait i = true) →
    (s.halted = true ∨ s.faults ≠ [] ∨ ∃ adj, s.txPhase = .waiting adj) → step s = .next t → t.history = s.history

/-- Only the FSM engine's operations issue transactions: the external interface's never do (rules R20, R135, R381). That a RESET
keeps the event history, neither adding to it nor clearing it, is the model's choice (log entry 13). -/
def Obligations.InterfaceIssuesNoTransaction : Prop :=
  ∀ (i : Instr) (s t : State), engineOnly i = false → exec i s = .next t → t.history = s.history

/-- Whatever an operation does, the parameters keep their values, the event history only grows, no model fault is removed, and
no operation but CLOCK_ADVANCE moves the clock (rules R6, R40, R41, R70, R346, R371). That the history survives a RESET, and that
a model fault takes back the transactions of its own step, are the model's choices (log entries 13 and 23). -/
def Obligations.ParametersAndRecordsArePreserved : Prop :=
  ∀ (i : Instr) (s t : State), exec i s = .next t →
    t.par = s.par ∧ s.history <+: t.history ∧ (∀ f ∈ s.faults, f ∈ t.faults) ∧
      ((∀ d, i ≠ .clockAdvance d) → t.clock = s.clock)

/-- A queued answer of the chip serves the first read of its address; without one, the read is a free draw, and the next one
is another (rule R66). The queue is the model's (log entry 11). -/
def Obligations.ReadTakesQueuedAnswerOrFreeDraw : Prop :=
  ∀ (s : State) (a : Byte),
    (∀ (l r : List (Byte × Byte)) (v : Byte), s.chipAnswers = l ++ (a, v) :: r → (∀ p ∈ l, p.1 ≠ a) →
      s.oracle a = v ∧ (s.busRead a).chipAnswers = l ++ r ∧ (s.busRead a).draws = s.draws) ∧
    ((∀ p ∈ s.chipAnswers, p.1 ≠ a) →
      s.oracle a = Config.chipDraw s.draws ∧ (s.busRead a).chipAnswers = s.chipAnswers ∧
        (s.busRead a).draws = s.draws + 1)

/-! ## The accessor -/

/-- The accessor, within 7 bits of address: SPI_READ makes one read transaction, whose byte is the result; SPI_WRITE and
SPI_BURST_WRITE make one transaction, whose bytes on the bus are `{1, A}` and the data; a burst without data raises
`F_EMPTY_BURST`. Above 0x7F each raises `F_ADDR_RANGE` (rules R90, R130 to R132). -/
def Obligations.AccessorMakesOneTransaction : Prop :=
  ∀ (a v : Byte) (data : List Byte) (s : State),
    (a.toNat ≤ 0x7F →
      exec (.spiRead a) s = .next { s with
        history := s.history ++ [⟨.read, a, [s.oracle a]⟩]
        chipAnswers := (s.busRead a).chipAnswers
        draws := (s.busRead a).draws
        result := .byte (s.oracle a) } ∧
      exec (.spiWrite a v) s = .next { s with history := s.history ++ [⟨.write, a, [v]⟩] } ∧
      (data ≠ [] → exec (.spiBurstWrite a data) s = .next { s with history := s.history ++ [⟨.burst, a, data⟩] }) ∧
      (data = [] → exec (.spiBurstWrite a data) s = .next (s.raiseFault .emptyBurst)) ∧
      (SpiEvent.mk .read a [v]).wire = [a, v] ∧
      (SpiEvent.mk .write a [v]).wire = [BitVec.ofNat 8 (0x80 + a.toNat), v] ∧
      (SpiEvent.mk .burst a data).wire = BitVec.ofNat 8 (0x80 + a.toNat) :: data) ∧
    (0x7F < a.toNat →
      exec (.spiRead a) s = .next (s.raiseFault .addrRange) ∧
      exec (.spiWrite a v) s = .next (s.raiseFault .addrRange) ∧
      exec (.spiBurstWrite a data) s = .next (s.raiseFault .addrRange))

/-- A model fault adds its name to `faults`, once, and changes nothing else (rule R346); that the event history of the bus is
among what stays is the model's choice (log entry 23). -/
def Obligations.ModelFaultIsOnlyRecorded : Prop :=
  ∀ (s : State) (f : FaultName),
    s.raiseFault f = { s with faults := (s.raiseFault f).faults } ∧
    (∀ g, g ∈ (s.raiseFault f).faults ↔ g ∈ s.faults ∨ g = f) ∧
    (s.faults.Nodup → (s.raiseFault f).faults.Nodup)

/-! ## Modem configuration -/

/-- Outside SLEEP and STANDBY, SET_FREQUENCY, SET_POWER and, for an SF in 7..12, SET_RATE raise `F_CONFIG_ACTIVE` before any
write (rule R147). -/
def Obligations.ReconfigurationNeedsStandby : Prop :=
  ∀ (s : State) (hz : BitVec 32) (sf p : Byte) (crc : Bool),
    s.modeShadow ≠ .known .sleep → s.modeShadow ≠ .known .standby →
      exec (.setFrequency hz) s = .next (s.raiseFault .configActive) ∧
      exec (.setPower p) s = .next (s.raiseFault .configActive) ∧
      (7 ≤ sf.toNat ∧ sf.toNat ≤ 12 → exec (.setRate crc sf) s = .next (s.raiseFault .configActive))

/-- SET_FREQUENCY in SLEEP or STANDBY: three writes of the floored word, most significant byte first; from 1 024 000 000 Hz
on, `F_FREQ_RANGE` (rules R62, R140). -/
def Obligations.SetFrequencyWritesFlooredWord : Prop :=
  ∀ (s : State) (hz : BitVec 32), s.modeShadow = .known .sleep ∨ s.modeShadow = .known .standby →
    (hz.toNat < 1024000000 → exec (.setFrequency hz) s = .next { s with
      history := s.history ++
        [s.wrote .frfMsb (BitVec.ofNat 8 (hz.toNat * 2 ^ 19 / 32000000 / 2 ^ 16)),
         s.wrote .frfMid (BitVec.ofNat 8 (hz.toNat * 2 ^ 19 / 32000000 / 2 ^ 8)),
         s.wrote .frfLsb (BitVec.ofNat 8 (hz.toNat * 2 ^ 19 / 32000000))] }) ∧
    (1024000000 ≤ hz.toNat → exec (.setFrequency hz) s = .next (s.raiseFault .freqRange))

/-- The round trip: the three bytes written for an accepted frequency stand for a frequency that is not above it, and less
than 61.03515625 Hz below it; for 868 100 000 Hz the error is 24.4140625 Hz (rule R141). -/
def Obligations.FrequencyRoundTrip : Prop :=
  ∀ (s : State) (hz : BitVec 32), s.modeShadow = .known .standby → hz.toNat < 1024000000 →
    ∃ (m d l : Byte) (back : ℚ), exec (.setFrequency hz) s = .next { s with
        history := s.history ++ [s.wrote .frfMsb m, s.wrote .frfMid d, s.wrote .frfLsb l] } ∧
      back = ((m.toNat * 65536 + d.toNat * 256 + l.toNat : ℕ) : ℚ) * 32000000 / 2 ^ 19 ∧
      0 ≤ (hz.toNat : ℚ) - back ∧ (hz.toNat : ℚ) - back < 61.03515625 ∧
      (hz.toNat = 868100000 → (hz.toNat : ℚ) - back = 24.4140625)

/-- SET_RATE with an SF in 7..12, in SLEEP or STANDBY: the four writes in order, whose values are the entry for the SF of the
family's table with or without CRC, and the family's symbol timeout, by SF 10 to 12 or not; bits [7:4] of the second value are
the SF; `sf` itself stays (rules R142, R144). -/
def Obligations.SetRateWritesFourRegisters : Prop :=
  ∀ (s : State) (crc : Bool), s.modeShadow = .known .sleep ∨ s.modeShadow = .known .standby →
    let tables := if crc then s.par.rateCrc else s.par.rateNoCrc
    let table := match s.par.variant with | .a => tables.a | .b => tables.b
    let long := match s.par.variant with | .a => s.par.symbTimeoutLong.a | .b => s.par.symbTimeoutLong.b
    let short := match s.par.variant with | .a => s.par.symbTimeoutShort.a | .b => s.par.symbTimeoutShort.b
    ∀ e ∈ [((7 : Byte), table.sf7, short), (8, table.sf8, short), (9, table.sf9, short), (10, table.sf10, long),
        (11, table.sf11, long), (12, table.sf12, long)], ∃ mc2 : Byte,
      exec (.setRate crc e.1) s = .next { s with
        history := s.history ++ [s.wrote .modemConfig1 e.2.1.mc1, s.wrote .modemConfig2 mc2,
          s.wrote .modemConfig3 e.2.1.mc3, s.wrote .symbTimeoutLsb e.2.2] } ∧
      mc2.toNat / 16 = e.1.toNat ∧ mc2.toNat % 16 = e.2.1.mc2Low.toNat

/-- SET_RATE with an SF outside 7..12, in every mode: no transaction, one log entry E8 with the SF, nothing else (rule R143).
-/
def Obligations.SetRateRejectsSfOutOfRange : Prop :=
  ∀ (s : State) (sf : Byte) (crc : Bool), ¬(7 ≤ sf.toNat ∧ sf.toNat ≤ 12) →
    exec (.setRate crc sf) s = .next { s with log := s.log ++ [⟨.sfRange, [sf.toNat], s.clock⟩] }

/-- SET_POWER in SLEEP or STANDBY: one write of the PA register, whose low nibble is the clamped power and whose high nibble
is the family's (rules R106, R145). -/
def Obligations.SetPowerWritesClampedPower : Prop :=
  ∀ (s : State) (p : Byte), s.modeShadow = .known .sleep ∨ s.modeShadow = .known .standby →
    ∃ v : Byte, exec (.setPower p) s = .next { s with history := s.history ++ [s.wrote .paConfig v] } ∧
      ((v.toNat % 16 : ℕ) : ℤ) = min (max p.toInt 2) 15 ∧
      v.toNat / 16 = (PerVariant.pick s.par.paHighNibble s.par.variant).toNat

/-- SET_POWER of a power and of its clamped value do the same, in every state (rule R146). -/
def Obligations.SetPowerIsIdempotentUnderClamp : Prop :=
  ∀ (s : State) (p q : Byte), q.toInt = min (max p.toInt 2) 15 → exec (.setPower p) s = exec (.setPower q) s

/-- SET_OPMODE: its words by mode, bits [7:3] reserved; a read of the mode register and a write of it; the bits under the mask
become the mode's code, every other bit, the LoRa-mode flag among them, keeps the value read, and the shadow becomes the mode
(rules R98, R150). -/
def Obligations.SetOpModeReadsModifiesWrites : Prop :=
  (∀ b : Byte, 8 ≤ b.toNat → ∃ e, decode (.op (0x2300 + b.setWidth 16) .empty) = .error e) ∧
  ∀ (s : State) (m : Mode), decode (.op (0x2300 + match m with
      | .sleep => 0 | .standby => 1 | .fstx => 2 | .tx => 3 | .fsrx => 4 | .rxCont => 5 | .rxSingle => 6 | .cad => 7)
      .empty) = .ok (.setOpmode m) ∧ ∃ v : Byte,
    exec (.setOpmode m) s = .next { s with
      history := s.history ++ [s.didRead .opMode (s.regValue .opMode), s.wrote .opMode v]
      chipAnswers := (s.readReg .opMode).chipAnswers
      draws := (s.readReg .opMode).draws
      modeShadow := .known m } ∧
    v &&& ~~~s.par.modes.mask = s.regValue .opMode &&& ~~~s.par.modes.mask ∧
    v &&& s.par.modes.loraBit = s.regValue .opMode &&& s.par.modes.loraBit ∧
    v &&& s.par.modes.mask = modeCode s.par.modes m

/-- SET_IQ, CLEAR_IRQ, SET_IRQ_MASK and SET_DIO_MAP: their words decode to them, and each makes one write and nothing else, in
every state: the standby precondition does not apply (rules R152, R154 to R156). -/
def Obligations.PlainRegisterWrites : Prop :=
  ∀ (s : State) (invert : Bool) (bits : Byte) (k : DioKind),
    decode (.op (0x2400 + if invert then 1 else 0) .empty) = .ok (.setIq invert) ∧
    exec (.setIq invert) s = .next { s with history := s.history ++ [s.wrote .invertIq
      (PerVariant.pick (if invert then s.par.iqInverted else s.par.iqNormal) s.par.variant)] } ∧
    decode (.op (0x2500 + bits.setWidth 16) .empty) = .ok (.clearIrq bits) ∧
    exec (.clearIrq bits) s = .next { s with history := s.history ++ [s.wrote .irqFlags bits] } ∧
    decode (.op (0x2600 + bits.setWidth 16) .empty) = .ok (.setIrqMask bits) ∧
    exec (.setIrqMask bits) s = .next { s with history := s.history ++ [s.wrote .irqFlagsMask bits] } ∧
    decode (.op (0x2700 + match k with | .cad => 0 | .rx => 1 | .tx => 2) .empty) = .ok (.setDioMap k) ∧
    exec (.setDioMap k) s = .next { s with history := s.history ++ [s.wrote .dioMapping1
      (match k with | .cad => s.par.dioMap.cad | .rx => s.par.dioMap.rx | .tx => s.par.dioMap.tx)] }

/-- CHECK_CHIP_ID: its word, one read; OK on the expected value; on another, `halted`, the entry E1 with the value, FAIL
(rule R158). -/
def Obligations.CheckChipIdHaltsOnMismatch : Prop :=
  decode (.op 0x2800 .empty) = .ok .checkChipId ∧
  ∀ (s : State) (v : Byte), s.regValue .version = v →
    (v = PerVariant.pick s.par.expectedChipId s.par.variant →
      exec .checkChipId s = .next { s.readReg .version with result := .ok }) ∧
    (v ≠ PerVariant.pick s.par.expectedChipId s.par.variant →
      exec .checkChipId s = .next { s.readReg .version with
        halted := true
        log := s.log ++ [⟨.chipId, [v.toNat], s.clock⟩]
        result := .fail })

/-! ## Hop controller -/

/-- ADVANCE_CHANNEL: the next index modulo N, and that channel's minimum SF; no transaction, nothing else (rule R170). -/
def Obligations.AdvanceChannelStepsIndex : Prop :=
  decode (.op 0x3000 .empty) = .ok .advanceChannel ∧
  ∀ s : State, exec .advanceChannel s = .next { s with
    ch := (s.ch + 1) % s.par.plan.entries.length
    sf := (s.planAt ((s.ch + 1) % s.par.plan.entries.length)).minSF }

/-- ADVANCE_CHANNEL applied N times returns the index to its starting value, and the SF is the channel's minimum after each
application (rule R171). The index starts in 0..N−1 (rule R25). -/
def Obligations.AdvanceChannelIsCyclic : Prop :=
  ∀ (run : ℕ → State), (∀ k, exec .advanceChannel (run k) = .next (run (k + 1))) → (run 0).ch < (run 0).numChannels →
    (run (run 0).numChannels).ch = (run 0).ch ∧ ∀ k, (run (k + 1)).sf = ((run (k + 1)).planAt (run (k + 1)).ch).minSF

/-- Re-baselining: a timestamp numerically ahead of the clock is set to it, another stays, nothing else changes, and no
elapsed time wraps afterwards (rule R175). -/
def Obligations.RebaselineNeverGoesNegative : Prop :=
  ∀ s : State,
    s.rebaseline = { s with
      eventTime := if s.clock < s.eventTime then s.clock else s.eventTime
      doneTime := if s.clock < s.doneTime then s.clock else s.doneTime } ∧
    (s.rebaseline.elapsed s.rebaseline.eventTime : ℤ) = (s.clock : ℤ) - s.rebaseline.eventTime ∧
    (s.rebaseline.elapsed s.rebaseline.doneTime : ℤ) = (s.clock : ℤ) - s.rebaseline.doneTime

/-- The soft timeouts, on timestamps that are not ahead of the clock: SCAN and CAD measure from the last CAD-done and RX from
the last event, with hopping on, against the wait of the state and the SF; TX_DONE measures 7 000 000 µs from the last event,
with hopping on or off; each is strict; the other states have none (rules R176 to R179). An SF outside 7..12 has no wait in the
spec (log entry 7). -/
def Obligations.SoftTimeoutConditions : Prop :=
  ∀ s : State, s.eventTime ≤ s.clock → s.doneTime ≤ s.clock →
    (∀ e ∈ [((7 : BitVec 4), s.par.doneWaitScan.sf7, s.par.doneWaitCad.sf7, s.par.eventWait.sf7),
        (8, s.par.doneWaitScan.sf8, s.par.doneWaitCad.sf8, s.par.eventWait.sf8),
        (9, s.par.doneWaitScan.sf9, s.par.doneWaitCad.sf9, s.par.eventWait.sf9),
        (10, s.par.doneWaitScan.sf10, s.par.doneWaitCad.sf10, s.par.eventWait.sf10),
        (11, s.par.doneWaitScan.sf11, s.par.doneWaitCad.sf11, s.par.eventWait.sf11),
        (12, s.par.doneWaitScan.sf12, s.par.doneWaitCad.sf12, s.par.eventWait.sf12)], s.sf = e.1 →
      (s.radioState = 1 → (s.tmo = true ↔ s.cfgHop = true ∧ e.2.1 < s.clock - s.doneTime)) ∧
      (s.radioState = 2 → (s.tmo = true ↔ s.cfgHop = true ∧ e.2.2.1 < s.clock - s.doneTime)) ∧
      (s.radioState = 3 → (s.tmo = true ↔ s.cfgHop = true ∧ e.2.2.2 < s.clock - s.eventTime))) ∧
    (s.radioState = 5 → (s.tmo = true ↔ 7000000 < s.clock - s.eventTime)) ∧
    (s.radioState = 0 ∨ s.radioState = 4 ∨ s.radioState = 6 ∨ s.radioState = 7 → s.tmo = false)

/-- With hopping off, no pass changes the channel (rule R172). -/
def Obligations.ChannelIsPinnedWithoutHopping : Prop :=
  ∀ s t : State, s.cfgHop = false → exec .evalPass s = .next t → t.ch = s.ch

/-! ## The pass -/

/-- The key of a pass, field by field, from the flags that its one read returns, and the state in which its row runs:
`pending` is consumed, both timestamps are re-baselined, a flag stamps the event, and the RSSI register is read where the
secondary condition needs it (rules R95, R173, R190 to R194). -/
def Obligations.PassFormsKeyFromSnapshot : Prop :=
  ∀ s : State,
    let f := s.regValue .irqFlags
    let r := s.readReg .irqFlags
    let reads := s.radioState = 1 ∧ f.getLsbD 0 = false ∧ f.getLsbD 2 = true
    let thr := s.par.rssiThreshold - (if s.cfgHop then 7 else 0)
    s.passKey.extractLsb' 13 3 = s.radioState ∧
    s.passKey.extractLsb' 0 8 = f ∧
    s.passKey.getLsbD 8 = s.outValid ∧
    s.passKey.getLsbD 9 = (s.cfgHop || s.cfgCad) ∧
    s.passKey.getLsbD 10 = s.cfgHop ∧
    s.passKey.getLsbD 11 = s.rebaseline.tmo ∧
    (s.passKey.getLsbD 12 = true ↔
      (reads ∧ thr < ((r.regValue .rssiValue).toNat : ℤ)) ∨
      (s.radioState = 2 ∧ f.getLsbD 0 = false ∧ f.getLsbD 2 = true ∧ (s.planAt s.ch).maxSF ≤ s.sf) ∨
      (s.radioState = 3 ∧ f.getLsbD 6 = true ∧ (f.getLsbD 4 = true ∨ s.par.requireValidHeader = false))) ∧
    s.passReady = { s with
      passActive := true
      pending := false
      eventTime := if f = 0 then s.rebaseline.eventTime else s.clock
      doneTime := s.rebaseline.doneTime
      history := s.history ++ [s.didRead .irqFlags f] ++
        if reads then [s.didRead .rssiValue (r.regValue .rssiValue)] else []
      chipAnswers := if reads then (r.readReg .rssiValue).chipAnswers else r.chipAnswers
      draws := if reads then (r.readReg .rssiValue).draws else r.draws }

/-- EVAL_PASS completes wherever it is enabled, with a request, if there is one, that can be keyed: it does what the row that
its key selects does in the state that the pass has prepared, and no model fault arises (rules R190, R230, R302). -/
def Obligations.EvalPassRunsTheSelectedRow : Prop :=
  ∀ s : State, s.halted = false → s.booted = true → s.passActive = false → s.faults = [] →
    (s.outValid = true → s.keyable) →
      ∃ (i : Instr) (t : State), decode (.eval s.passKey) = .ok i ∧ exec i s.passReady = .next t ∧
        exec .evalPass s = .next t ∧ t.faults = []

/-- While the block is halted, or a model fault is recorded, or before bring-up, or during a pass, no pass starts: the
operation changes nothing (rules R190, R195). -/
def Obligations.EvalPassNeedsItsPrecondition : Prop :=
  ∀ s : State, s.halted = true ∨ s.faults ≠ [] ∨ s.booted = false ∨ s.passActive = true → exec .evalPass s = .next s

/-! ## Arming sequences -/

/-- ARM_SCANNER: its word, its transactions in order (15 of them when the SF is in range), the shadow, both timestamps,
nothing else, in every state: no fault is reachable (rule R200). -/
def Obligations.ArmScannerSequence : Prop :=
  decode (.op 0x4100 .empty) = .ok .armScanner ∧
  ∀ s : State,
    exec .armScanner s = .next { s.twoModeReads with
      modeShadow := .known .cad
      eventTime := s.clock
      doneTime := s.clock
      history := s.history ++
        (s.modeEvents s.opMode1 .standby ++ [s.wrote .irqFlags 0xFF] ++
          s.frequencyEvents (s.planAt s.ch).uplinkFrequencyHz ++ s.rateEvents (s.sf.setWidth 8) s.par.rxCrcFlag ++
          [s.wrote .invertIq (iqValue s.par false), s.wrote .dioMapping1 s.par.dioMap.cad, s.wrote .irqFlagsMask 0xFA] ++
          s.modeEvents s.opMode2 .cad)
      log := s.log ++ s.rateLog (s.sf.setWidth 8) } ∧
    (7 ≤ s.sf.toNat ∧ s.sf.toNat ≤ 12 → (s.armEvents s.sf .cad .cad s.opMode1 s.opMode2).length = 15)

/-- ARM_RX_SINGLE: its word, the six transactions in order, the captured RSSI, the shadow, the event time, nothing else, in
every mode (rule R201). -/
def Obligations.ArmRxSingleSequence : Prop :=
  decode (.op 0x4200 .empty) = .ok .armRxSingle ∧
  ∀ s : State, exec .armRxSingle s = .next { s with
    lastRssi := s.regValue .rssiValue
    modeShadow := .known .rxSingle
    eventTime := s.clock
    history := s.history ++ [s.wrote .dioMapping1 s.par.dioMap.rx, s.didRead .rssiValue (s.regValue .rssiValue),
      s.wrote .irqFlags 0xFF, s.wrote .irqFlagsMask 0x0F] ++
      s.modeEvents ((s.readReg .rssiValue).regValue .opMode) .rxSingle
    chipAnswers := ((s.readReg .rssiValue).readReg .opMode).chipAnswers
    draws := ((s.readReg .rssiValue).readReg .opMode).draws }

/-- ARM_RX_CONT: its word, the configured SF, its transactions in order, the shadow, the event time, nothing else, in every
state (rule R202). -/
def Obligations.ArmRxContSequence : Prop :=
  decode (.op 0x4300 .empty) = .ok .armRxCont ∧
  ∀ s : State, exec .armRxCont s = .next { s.twoModeReads with
    sf := s.cfgSF
    modeShadow := .known .rxCont
    eventTime := s.clock
    history := s.history ++
      (s.modeEvents s.opMode1 .standby ++ [s.wrote .irqFlags 0xFF] ++
        s.frequencyEvents (s.planAt s.ch).uplinkFrequencyHz ++ s.rateEvents (s.cfgSF.setWidth 8) s.par.rxCrcFlag ++
        [s.wrote .invertIq (iqValue s.par false), s.wrote .dioMapping1 s.par.dioMap.rx, s.wrote .irqFlagsMask 0x0F] ++
        s.modeEvents s.opMode2 .rxCont)
    log := s.log ++ s.rateLog (s.cfgSF.setWidth 8) }

/-- ARM_LISTEN chooses by scanner mode: the scanner at the channel's minimum SF in SCAN, or the continuous receiver in RX.
FORCE_SCAN takes the first whatever the mode. RECOVER clears the flags and the mask and then listens. The states they leave
are those of the arming sequences (rules R203, R204, R206). -/
def Obligations.ListenForceScanRecover : Prop :=
  ∀ s : State,
    (s.cfgHop = true ∨ s.cfgCad = true → exec .armListen s = .next
      { ({ s with sf := (s.planAt s.ch).minSF } : State).scannerArmed with radioState := 1 }) ∧
    (s.cfgHop = false → s.cfgCad = false → exec .armListen s = .next { s.receiverArmed with radioState := 3 }) ∧
    exec .forceScan s = .next { ({ s with sf := (s.planAt s.ch).minSF } : State).scannerArmed with radioState := 1 } ∧
    exec .recover s = exec .armListen
      { s with history := s.history ++ [s.wrote .irqFlags 0xFF, s.wrote .irqFlagsMask 0x00] } ∧
    exec .recover s = .next ({ s with
      history := s.history ++ [s.wrote .irqFlags 0xFF, s.wrote .irqFlagsMask 0x00] } : State).listening

/-- RESTART: its word, SLEEP, STANDBY, the flags and the mask cleared, and INIT (rule R207). -/
def Obligations.RestartSequence : Prop :=
  decode (.op 0x4700 .empty) = .ok .restart ∧
  ∀ s : State, exec .restart s = .next { s.twoModeReads with
    modeShadow := .known .standby
    radioState := 0
    history := s.history ++ s.modeEvents s.opMode1 .sleep ++ s.modeEvents s.opMode2 .standby ++
      [s.wrote .irqFlags 0xFF, s.wrote .irqFlagsMask 0x00] }

/-- KEY_TX, for a request that SUBMIT_TX would accept: its word, the transactions in order with the payload as one burst, the
shadow, the event time; an SF out of range is logged and its rate is not written; the slot stays (rules R64, R205). -/
def Obligations.KeyTxSequence : Prop :=
  decode (.op 0x4500 .empty) = .ok .keyTx ∧
  ∀ s : State, s.keyable → exec .keyTx s = .next { s.twoModeReads with
    modeShadow := .known .tx
    eventTime := s.clock
    history := s.history ++
      (s.modeEvents s.opMode1 .standby ++ s.frequencyEvents s.outbound.freq ++
        s.rateEvents s.outbound.sf s.outbound.crc ++
        [s.wrote .paConfig (paValue s.par s.outbound.power), s.wrote .invertIq (iqValue s.par s.outbound.iq),
         s.wrote .payloadLength s.outbound.len, s.wrote .fifoAddrPtr s.par.txFifoBase,
         ⟨.burst, s.regByte .fifo, s.outbound.payload.take s.outbound.len.toNat⟩,
         s.wrote .dioMapping1 s.par.dioMap.tx] ++ s.modeEvents s.opMode2 .tx)
    log := s.log ++ s.rateLog s.outbound.sf }

/-! ## The rows of the state machine -/

/-- The rows without an action change nothing but the end of the pass (rules R238, R245, R252, R255, R265). -/
def Obligations.IdleRowsChangeNothing : Prop :=
  ∀ (k : BitVec 16) (s : State),
    exec (.evScanIdle k) s = .next s.passEnded ∧ exec (.evCadIdle k) s = .next s.passEnded ∧
    exec (.evRxHdrseen k) s = .next s.passEnded ∧ exec (.evRxIdle k) s = .next s.passEnded ∧
    exec (.evTxdWait k) s = .next s.passEnded

/-- The rows that arm without a hop: INIT clears the flags and the mask and arms the scanner at the channel's minimum SF, in
SCAN; a detection starts a single receive in RX; a promotion arms the scanner in CAD at the same SF; a stay re-arms it; in CAD
the sweep goes to the next SF, and back to SCAN at the minimum SF when it is exhausted (rules R231 to R233, R235, R240 to
R242). -/
def Obligations.ArmingRowsWithoutHop : Prop :=
  ∀ (k : BitVec 16) (s : State),
    exec (.evInit k) s = .next ((s.andWrote .irqFlags 0xFF).andWrote .irqFlagsMask 0x00).scanning.passEnded ∧
    exec (.evScanDetect k) s = .next (s.singleArmed.setState 3).passEnded ∧
    exec (.evCadDetect k) s = .next (s.singleArmed.setState 3).passEnded ∧
    exec (.evScanPromote k) s = .next (s.scannerArmed.setState 2).passEnded ∧
    exec (.evScanStay k) s = .next s.scannerArmed.passEnded ∧
    exec (.evCadNextSf k) s = .next (s.setSf (s.sf + 1)).scannerArmed.passEnded ∧
    exec (.evCadExhausted k) s = .next s.scanning.passEnded

/-- The rows that hop go to the next channel at its minimum SF and arm there: the scanner in the same state from SCAN, the
scanner in SCAN from CAD, whatever listening mode is configured from RX (rules R234, R237, R244, R250, R254). -/
def Obligations.HoppingRowsAdvanceAndArm : Prop :=
  ∀ (k : BitVec 16) (s : State),
    exec (.evScanDoneHop k) s = .next s.hopped.scannerArmed.passEnded ∧
    exec (.evScanSofthop k) s = .next s.hopped.scannerArmed.passEnded ∧
    exec (.evCadSofthop k) s = .next (s.hopped.scannerArmed.setState 1).passEnded ∧
    exec (.evRxTimeoutHop k) s = .next s.hopped.listening.passEnded ∧
    exec (.evRxSofttmo k) s = .next s.hopped.listening.passEnded

/-- An unexpected key is logged as E6 with the state and the flags, and listening is recovered; in TX_DONE the flags are
cleared and SCAN is forced in every mode (rules R239, R246, R256, R261, R266, R268). -/
def Obligations.UnexpectedRowsLogAndRecover : Prop :=
  ∀ (k : BitVec 16) (s : State),
    exec (.evScanUnexpected k) s = .next (s.recovered k).passEnded ∧
    exec (.evCadUnexpected k) s = .next (s.recovered k).passEnded ∧
    exec (.evRxUnexpected k) s = .next (s.recovered k).passEnded ∧
    exec (.evTxNoreq k) s = .next (s.recovered k).passEnded ∧
    exec (.evDefault k) s = .next (s.recovered k).passEnded ∧
    exec (.evTxdUnexpected k) s = .next
      ((s.logged .unexpectedIrq [k.toNat / 2 ^ 13, k.toNat % 2 ^ 8]).andWrote .irqFlags 0xFF).scanning.passEnded

/-- The rows that end a reception or a transmission: a rejected reception is logged and counted as seen only; a good one is
captured; a receive timeout is not logged; a transmission is counted on the listening channel; each clears the flags and
listens again. A missing TXDONE is logged as E5 with the time since the keying, and restarts the receiver: INIT, nothing
counted (rules R247 to R249, R251, R263, R264). On a row alone, that E5 gives 0 for a timestamp ahead of the clock is the
model's choice (log entry 17), and so is that an SF outside 7..12 or a channel past the plan has no counter (log entry 7). -/
def Obligations.CompletionRowsCountAndListen : Prop :=
  ∀ (k : BitVec 16) (s : State),
    let seen : State := { s with stats := { s.stats with msgTotal := s.stats.msgTotal + 1 } }
    exec (.evRxCrcerr k) s = .next
      ((seen.logged .crcError [s.ch, s.sf.toNat]).andWrote .irqFlags 0xFF).listening.passEnded ∧
    exec (.evRxHdrinv k) s = .next
      ((seen.logged .headerInvalid [s.ch, s.sf.toNat]).andWrote .irqFlags 0xFF).listening.passEnded ∧
    exec (.evRxDone k) s = .next (s.captured.andWrote .irqFlags 0xFF).listening.passEnded ∧
    exec (.evRxTimeout k) s = .next (s.andWrote .irqFlags 0xFF).listening.passEnded ∧
    exec (.evTxdDone k) s = .next (({ s with stats := { s.stats with
      msgSent := s.stats.msgSent + 1
      sentPerCh := s.stats.sentPerCh.modify s.ch (· + 1) } } : State).andWrote .irqFlags 0xFF).listening.passEnded ∧
    exec (.evTxdTimeout k) s = .next (s.logged .txdoneMissing [s.clock - s.eventTime]).restarted.passEnded

/-- A transmission, from TX and from the rows that go to TX, for a request that can be keyed: it waits for the adjusted
target, keys at once when it is now, and after a missed window logs E9 and keys late, or drops the request and listens, by
`DropOnMiss` (rules R236, R243, R253, R260, R281). -/
def Obligations.TransmitRowsWaitKeyOrDrop : Prop :=
  ∀ (k : BitVec 16) (s : State), s.keyable →
    exec (.evTxRun k) s = .next s.transmission.passEnded ∧
    exec (.evScanTxreq k) s = .next (s.setState 4).transmission.passEnded ∧
    exec (.evCadTxreq k) s = .next (s.setState 4).transmission.passEnded ∧
    exec (.evRxTxreq k) s = .next (s.setState 4).transmission.passEnded

/-- Every pass of a state that a run reaches makes one of the transitions of the table of rule R269. -/
def Obligations.TransitionsAreTheTabledOnes : Prop :=
  ∀ s t : State, s.Legal → s.booted = true → s.faults = [] → s.txPhase = .idle → exec .evalPass s = .next t →
    (s.radioState.toNat, t.radioState.toNat) ∈
      [(0, 1), (1, 3), (1, 2), (1, 1), (1, 4), (1, 5), (2, 4), (2, 5), (3, 4), (3, 5), (2, 3), (2, 2), (2, 1),
       (3, 1), (3, 3), (5, 1), (5, 3), (5, 0), (5, 5)]

/-! ## The scheduler -/

/-- WAIT_UNTIL: the target is adjusted modulo 2^W, by an extra offset at SF 7 alone; the time left is the difference to the
clock as a signed W-bit value; a target in the past is logged and reported as missed, without a wait; one that is now is on
time; one ahead suspends the call (rules R9, R280 to R282). That a call on its own holds a pass is the model's choice, and so is
a target that does not fit W bits, which is no uW of the spec (log entries 1 and 16). -/
def Obligations.WaitUntilOutcomes : Prop :=
  ∀ (s : State) (target : ℕ) (sf : Byte),
    let adj := s.targetOf target sf
    let wait := s.timeLeft target sf
    adj = (target + s.par.txDelay + (if sf.toNat = 7 then s.par.sf7Extra else 0)) % 2 ^ s.par.timeBits ∧
    (2 ^ s.par.timeBits ∣ wait - ((adj : ℤ) - s.clock)) ∧
    -2 ^ (s.par.timeBits - 1) ≤ wait ∧ wait < 2 ^ (s.par.timeBits - 1) ∧
    (wait < 0 → exec (.waitUntil target sf) s = .next { s with
      log := s.log ++ [⟨.txMissed, [target % 2 ^ s.par.timeBits, adj, s.clock], s.clock⟩]
      result := .missed true }) ∧
    (wait = 0 → exec (.waitUntil target sf) s = .next { s with result := .missed false }) ∧
    (0 < wait → exec (.waitUntil target sf) s = .next { s with txPhase := .waiting adj, passActive := true })

/-- CLOCK_ADVANCE: a step in range moves the clock modulo 2^W and releases a wait whose distance, taken before the step, it
covers; a step out of range is refused; from an agent other than the clock it changes nothing (rules R20, R40, R301). That the
refusal's entry carries no values, and what becomes of a step that another agent presents, are the model's choices (log entries
9 and 21). -/
def Obligations.ClockAdvanceMovesAndReleases : Prop :=
  (∀ d : ℕ, decode (.op 0x8700 (.tick d)) = .ok (.clockAdvance d)) ∧
  (∀ (s : State) (ag : Agent) (d : ℕ) (rest : List Input), s.nextIs (.frame ag (.op 0x8700 (.tick d))) rest →
    ag ≠ .clock → step s = .next { s with inbox := rest }) ∧
  ∀ (s : State) (d : ℕ),
    (1 ≤ d → d < 2 ^ (s.par.timeBits - 1) → exec (.clockAdvance d) s = .next { s with
      clock := (s.clock + d) % 2 ^ s.par.timeBits
      txPhase := match s.txPhase with
        | .waiting adj => if s.distanceTo adj ≤ d then .released else .waiting adj
        | p => p
      result := .none }) ∧
    (d = 0 ∨ 2 ^ (s.par.timeBits - 1) ≤ d → exec (.clockAdvance d) s = .next { s with
      log := s.log ++ [⟨.badOp, [], s.clock⟩]
      result := .refused .badOp })

/-- A wait is released by exactly the clock steps that cover its distance, in whatever parts they come: never before the
target, and not missed by a long step (rule R283). -/
def Obligations.WaitIsReleasedAtItsTarget : Prop :=
  ∀ (run : ℕ → State) (d : ℕ → ℕ) (adj : ℕ), (run 0).txPhase = .waiting adj → 0 < (run 0).distanceTo adj →
    (∀ k, 1 ≤ d k ∧ d k < 2 ^ ((run 0).par.timeBits - 1)) →
      (∀ k, exec (.clockAdvance (d k)) (run k) = .next (run (k + 1))) →
        ∀ n, (run n).txPhase =
          if (run 0).distanceTo adj ≤ ((List.range n).map d).sum then .released else .waiting adj

/-- The released engine's one step: the wait is over, the transmitter is keyed, the request is consumed, and the pass ends in
TX_DONE (rules R260, R280, R283). The moment is the model's schedule (log entry 9). -/
def Obligations.ReleasedPassKeysTransmitter : Prop :=
  ∀ (s : State) (rest : List Input), s.engineTurn rest → s.txPhase = .released → s.halted = false → s.faults = [] →
    s.keyable → step s = .next { ({ s with inbox := rest, txPhase := .idle } : State).keyed with
      outValid := false
      radioState := 5
      passActive := false }

/-! ## Packets and the interface -/

/-- CAPTURE_PACKET: the reads and the pointer write in order, the drained bytes, the slot, the counters, and E7 with the
claimed count above 128. The drain makes one read for each byte, and its k-th byte is what the FIFO register returns after k
reads of it (rules R64, R310, R313, R315, R316). That an SF outside 7..12 or a channel past the plan has no counter, so that
only the totals count there, is the model's choice (log entry 7). -/
def Obligations.CapturePacketFillsSlot : Prop :=
  (∀ s : State, exec .capturePacket s = .next s.captured) ∧
  ∀ (s : State) (n : ℕ), (s.drainBytes n).length = n ∧
    (s.drain n).history = s.history ++ (s.drainBytes n).map (s.didRead .fifo) ∧
    ∀ k, k < n → (s.drainBytes n)[k]? = some ((s.drain k).regValue .fifo)

/-- The SNR is the signed byte shifted right by 2, or divided by 4 toward zero; it lies in −32..31; the two differ only for
negative values that are no multiple of 4. The RSSI is the byte less 139 on VARIANT_A and less 157 on VARIANT_B (rules R311,
R312). -/
def Obligations.PacketQualityConversions : Prop :=
  ∀ r : Byte,
    packetSnr .floor r = (r.sshiftRight 2).toInt ∧ packetSnr .trunc r = r.toInt.tdiv 4 ∧
    (∀ m, -32 ≤ packetSnr m r ∧ packetSnr m r ≤ 31) ∧
    (packetSnr .floor r ≠ packetSnr .trunc r ↔ r.toInt < 0 ∧ r.toInt % 4 ≠ 0) ∧
    packetRssi .a r = r.toNat - 139 ∧ packetRssi .b r = r.toNat - 157

/-- IRQ_EDGE: a wired line sets `pending`, in every state; line 3, and line 2 where two lines are wired, are refused (rule
R300). That the refusal's entry carries no values is the model's choice (log entry 9). -/
def Obligations.IrqEdgeSetsPending : Prop :=
  ∀ (s : State) (line : BitVec 2),
    (line.toNat < 2 ∨ line.toNat = 2 ∧ s.par.threeIrqLines = true →
      exec (.irqEdge line) s = .next { s with pending := true, result := .none }) ∧
    (line.toNat = 3 ∨ line.toNat = 2 ∧ s.par.threeIrqLines = false →
      exec (.irqEdge line) s = .next { s with
        log := s.log ++ [⟨.badOp, [], s.clock⟩]
        result := .refused .badOp })

/-- SUBMIT_TX, in the host's turn on a block that is not halted: BUSY while a request is held, INVALID on a bad length or
frequency, else the request is staged whole and the answer is OK (rule R302). A target that does not fit W bits, which is no uW
of the spec, is cut to its low bits (log entry 1). -/
def Obligations.SubmitTxStagesRequest : Prop :=
  ∀ (s : State) (r : OutboundRequest), s.hostTurn → s.halted = false →
    (s.outValid = true → exec (.submitTx r) s = .next ((s.logged .txBusy []).answered .busy)) ∧
    (s.outValid = false → r.payload.length < 1 ∨ s.par.maxTxLen.toNat < r.payload.length ∨ 1024000000 ≤ r.freq.toNat →
      exec (.submitTx r) s = .next ((s.logged .txInvalid [r.payload.length, r.freq.toNat]).answered .invalid)) ∧
    (s.outValid = false → 1 ≤ r.payload.length → r.payload.length ≤ s.par.maxTxLen.toNat → r.freq.toNat < 1024000000 →
      exec (.submitTx r) s = .next { s with
        outValid := true
        outbound := {
          payload := r.payload ++ s.outbound.payload.drop r.payload.length
          len := BitVec.ofNat 8 r.payload.length
          target := r.target % 2 ^ s.par.timeBits, sf := r.sf, power := r.power, freq := r.freq, crc := r.crc, iq := r.iq }
        result := .ok })

/-- TAKE_PACKET, in the host's turn on a block that is not halted: the packet with its first `inLen` bytes, and the slot is
empty; EMPTY if it was (rule R303). -/
def Obligations.TakePacketHandsOver : Prop :=
  ∀ s : State, s.hostTurn → s.halted = false →
    (s.inValid = true → exec .takePacket s = .next { s with
      inValid := false
      result := .packet { s.inbound with payload := s.inbound.payload.take s.inbound.len } }) ∧
    (s.inValid = false → exec .takePacket s = .next { s with result := .empty })

/-- READ_STATS gives the counters outside a pass, halted or not, and READ_STATE gives the snapshot in every state; neither
changes anything (rules R284, R304, R309). That READ_STATS is also enabled before bring-up is the model's reading (log entry
20). -/
def Obligations.ReadsGiveCountersAndSnapshot : Prop :=
  ∀ s : State,
    (s.passActive = false → s.faults = [] → exec .readStats s = .next { s with result := .stats s.stats }) ∧
    exec .readState s = .next { s with result := .snapshot {
      radioState := s.radioState, sf := s.sf, ch := s.ch, cfgSF := s.cfgSF, cfgHop := s.cfgHop, cfgCad := s.cfgCad
      cfgCh := s.cfgCh, txPhase := s.txPhase
      waitPhase := match s.txPhase with
        | .waiting adj => if s.par.coarseThreshold < s.distanceTo adj then .coarse else .fine
        | _ => .none
      lastRssi := s.lastRssi, halted := s.halted, inValid := s.inValid, outValid := s.outValid
      modeShadow := s.modeShadow, faults := s.faults, log := s.log } }

/-- CONFIGURE, in the host's turn on a block that is not halted: a bad record, or TX or TX_DONE, is logged as E11 and
rejected; else the configuration is taken, the channel is pinned to 0 without hopping, and the state is INIT (rule R305). -/
def Obligations.ConfigureTakesRecord : Prop :=
  ∀ (s : State) (c : CfgRecord), s.hostTurn → s.halted = false →
    let bad := s.radioState = 4 ∨ s.radioState = 5 ∨ ¬(7 ≤ c.sf.toNat ∧ c.sf.toNat ≤ 12) ∨ 1 < c.hop.toNat ∨
      1 < c.cad.toNat ∨ s.numChannels ≤ c.ch ∨ (c.hop.toNat = 1 ∧ s.numChannels < 3)
    (bad → exec (.configure c) s = .next
      ((s.logged .configRejected [c.sf.toNat, c.hop.toNat, c.cad.toNat, c.ch]).answered .rejected)) ∧
    (¬bad → exec (.configure c) s = .next { s with
      cfgSF := BitVec.ofNat 4 c.sf.toNat
      cfgHop := c.hop.toNat == 1
      cfgCad := c.cad.toNat == 1
      cfgCh := c.ch
      ch := if c.hop.toNat = 1 then c.ch else 0
      radioState := 0
      result := .ok })

/-- A halted block refuses SUBMIT_TX, TAKE_PACKET and CONFIGURE with REFUSE_HALTED, and nothing else changes. A host operation
that is not enabled waits: during a pass, with a model fault, and, but for READ_STATS, before bring-up on a block that is not
halted. A waiting operation runs, and leaves the list, in the first step that finds it enabled and none before it (rules R21,
R317, R331, R346, R347, R373; 90_conflicts.md C14). The list, and that its operations come before the schedule, are the model's
(log entry 10), and that READ_STATS is enabled before bring-up is the model's reading of rule R373 (log entry 20). -/
def Obligations.HostOperationsRefusedOrWaiting : Prop :=
  (∀ (s : State) (r : OutboundRequest) (c : CfgRecord), s.hostTurn → s.halted = true →
    exec (.submitTx r) s = .next { s with result := .refused .halted } ∧
    exec .takePacket s = .next { s with result := .refused .halted } ∧
    exec (.configure c) s = .next { s with result := .refused .halted }) ∧
  (∀ (i : Instr) (s : State), canWait i = true →
    s.passActive = true ∨ s.faults ≠ [] ∨ (i ≠ .readStats ∧ s.booted = false ∧ s.halted = false) →
      exec i s = .next { s with waiting := s.waiting ++ [i] }) ∧
  ∀ (s : State) (before behind : List Instr) (i : Instr), s.waiting = before ++ i :: behind →
    (∀ j ∈ before, canWait j = true ∧ ¬s.enabledNow j) → canWait i = true → s.enabledNow i →
      step s = exec i { s with waiting := before ++ behind }

/-- RESET: every register that rule R371 gives a value takes it, in every state, a pass or a wait included; the clock, the
model faults and the parameters stay (rules R370, R371). The values that rule R371 leaves unspecified are free, and the
model's own fields and the event history stay, and a register narrower than its field of `Cfg0`, an index of ceil(log2 N) bits
and at least 1 among them, keeps the low bits (log entries 13, 14 and 22). -/
def Obligations.ResetGivesResetValues : Prop :=
  ∀ (s : State) (c : CfgRecord),
    let index := c.ch % 2 ^ max 1 (Nat.clog 2 s.numChannels)
    let ch0 := if c.hop.toNat = 1 then index else 0
    exec (.reset c) s = .next { s with
      radioState := 0, passActive := false, booted := false, txPhase := .idle
      sf := (s.planAt ch0).minSF
      ch := ch0
      cfgSF := BitVec.ofNat 4 c.sf.toNat, cfgHop := c.hop.toNat % 2 == 1, cfgCad := c.cad.toNat % 2 == 1, cfgCh := index
      cfg0 := c
      pending := false
      eventTime := unspecifiedEventTime s.par s.draws, doneTime := unspecifiedDoneTime s.par s.draws
      lastRssi := 0
      inValid := false, inbound := unspecifiedInbound s.par s.draws
      outValid := false, outbound := unspecifiedOutbound s.par s.draws
      stats := ⟨0, 0, 0, List.replicate 6 0, List.replicate s.numChannels 0, List.replicate s.numChannels 0⟩
      halted := false, modeShadow := .unknown, log := []
      draws := s.draws + 1
      result := .none }

/-- BRINGUP where it is enabled: an invalid `Cfg0` is the model fault; else the identity is checked: a mismatch halts the
block with E1; a match makes the transactions in order, stamps both times, and the block has booted, in INIT (rules R158,
R372). -/
def Obligations.BringupBootsOrHalts : Prop :=
  ∀ s : State, s.booted = false → s.halted = false → s.faults = [] →
    let v := s.regValue .version
    let valid := (7 ≤ s.cfg0.sf.toNat ∧ s.cfg0.sf.toNat ≤ 12) ∧ s.cfg0.hop.toNat ≤ 1 ∧ s.cfg0.cad.toNat ≤ 1 ∧
      s.cfg0.ch < s.numChannels ∧ (s.cfg0.hop.toNat = 1 → 3 ≤ s.numChannels)
    (¬valid → exec .bringup s = .next { s with faults := [.cfg0Invalid] }) ∧
    (valid → v ≠ PerVariant.pick s.par.expectedChipId s.par.variant → exec .bringup s = .next { s.readReg .version with
      halted := true
      log := s.log ++ [⟨.chipId, [v.toNat], s.clock⟩] }) ∧
    (valid → v = PerVariant.pick s.par.expectedChipId s.par.variant → exec .bringup s = .next s.broughtUp)

/-! ## Invariants -/

/-- Every step keeps the invariant: from a legal state, a legal state (rules R20 to R41, R172, R269, R346, R388). It rests on
the model's schedule, which holds no operation of the engine's as a frame, and on the choices that keep a time or an index
within its register (log entries 1, 9 and 14). -/
def Obligations.StepKeepsLegal : Prop :=
  ∀ s t : State, s.Legal → step s = .next t → t.Legal

/-- The state right after reset is legal (rules R371, R373), whatever the values that the model leaves free. -/
def Obligations.ResetStateIsLegal : Prop := State.reset.Legal
end

