-- ==== Sys2Proof/Laws/Decoding.lean ====
section
/-! SUPPORT. What the decoder can do, said once: the condition that each row of format EVAL stands for, and the side of the
block that a decoded operation belongs to. -/

namespace Sys2Proof

open Sys2Proof.Machine

/-! ## Keys, bit by bit -/

/-- Two words are equal if their bits are. -/
theorem word_eq_iff (a b : BitVec 16) :
    a = b ↔ a[0] = b[0] ∧ a[1] = b[1] ∧ a[2] = b[2] ∧ a[3] = b[3] ∧ a[4] = b[4] ∧ a[5] = b[5] ∧ a[6] = b[6] ∧
      a[7] = b[7] ∧ a[8] = b[8] ∧ a[9] = b[9] ∧ a[10] = b[10] ∧ a[11] = b[11] ∧ a[12] = b[12] ∧ a[13] = b[13] ∧
      a[14] = b[14] ∧ a[15] = b[15] := by
  constructor
  · rintro rfl
    simp
  · intro h
    apply BitVec.eq_of_getElem_eq
    intro i hi
    have hc : i = 0 ∨ i = 1 ∨ i = 2 ∨ i = 3 ∨ i = 4 ∨ i = 5 ∨ i = 6 ∨ i = 7 ∨ i = 8 ∨ i = 9 ∨ i = 10 ∨ i = 11 ∨ i = 12 ∨
      i = 13 ∨ i = 14 ∨ i = 15 := by omega
    rcases hc with rfl | rfl | rfl | rfl | rfl | rfl | rfl | rfl | rfl | rfl | rfl | rfl | rfl | rfl | rfl | rfl <;> tauto

theorem threeBits (v : BitVec 3) : v.toNat = v[0].toNat + 2 * v[1].toNat + 4 * v[2].toNat := by
  revert v
  decide

/-- The state field of a key by its bits. -/
theorem keyS_eq (k : BitVec 16) : keyS k = k[13].toNat + 2 * k[14].toNat + 4 * k[15].toNat := by
  have h : keyS k = (k.extractLsb' 13 3).toNat := by
    have := k.isLt
    simp only [keyS, BitVec.extractLsb'_toNat, Nat.shiftRight_eq_div_pow]
    omega
  rw [h, threeBits]
  simp

/-- The flag byte of a key equals a byte if its bits do. -/
theorem keyFlags_eq_iff (k : BitVec 16) (f : Byte) :
    k.toNat % 256 = f.toNat ↔ k[0] = f[0] ∧ k[1] = f[1] ∧ k[2] = f[2] ∧ k[3] = f[3] ∧ k[4] = f[4] ∧ k[5] = f[5] ∧
      k[6] = f[6] ∧ k[7] = f[7] := by
  have h : k.toNat % 256 = (k.extractLsb' 0 8).toNat := by simp [BitVec.extractLsb'_toNat]
  rw [h, ← BitVec.toNat_eq]
  constructor
  · rintro rfl
    simp
  · intro h
    apply BitVec.eq_of_getElem_eq
    intro i hi
    have hc : i = 0 ∨ i = 1 ∨ i = 2 ∨ i = 3 ∨ i = 4 ∨ i = 5 ∨ i = 6 ∨ i = 7 := by omega
    rcases hc with rfl | rfl | rfl | rfl | rfl | rfl | rfl | rfl <;> simp [h]

theorem keyQuiet_iff (k : BitVec 16) :
    keyQuiet k = true ↔ k[0] = false ∧ k[1] = false ∧ k[2] = false ∧ k[3] = false ∧ k[4] = false ∧ k[5] = false ∧
      k[6] = false ∧ k[7] = false := by
  simpa [keyQuiet] using keyFlags_eq_iff k 0

theorem keyHdrOnly_iff (k : BitVec 16) :
    keyHdrOnly k = true ↔ k[0] = false ∧ k[1] = false ∧ k[2] = false ∧ k[3] = false ∧ k[4] = true ∧ k[5] = false ∧
      k[6] = false ∧ k[7] = false := by
  simpa [keyHdrOnly] using keyFlags_eq_iff k 0x10

/-- A quiet key has none of the flags that rows name. -/
theorem keyQuiet_flags (k : BitVec 16) (h : keyQuiet k = true) :
    keyCaddet k = false ∧ keyCaddone k = false ∧ keyTxdone k = false ∧ keyCrcerr k = false ∧ keyRxdone k = false ∧
      keyRxtout k = false ∧ keyHdrOnly k = false := by
  have hb := (keyQuiet_iff k).mp h
  have ho := keyHdrOnly_iff k
  refine ⟨?_, ?_, ?_, ?_, ?_, ?_, ?_⟩
  case refine_7 =>
    rw [← Bool.not_eq_true, ho]
    simp [hb]
  all_goals simp [keyCaddet, keyCaddone, keyTxdone, keyCrcerr, keyRxdone, keyRxtout, hb]

/-- A key with HDRVALID alone has no other flag. -/
theorem keyHdrOnly_flags (k : BitVec 16) (h : keyHdrOnly k = true) : keyRxdone k = false ∧ keyRxtout k = false := by
  have hb := (keyHdrOnly_iff k).mp h
  simp [keyRxdone, keyRxtout, hb]

/-- The row that a key decodes to, by the conditions of rule R101 in its order. -/
theorem decodeKey_eq (k : BitVec 16) :
    decodeKey k =
      if keyS k = 0 then .init
      else if keyS k = 1 then
        if keyCaddet k then .scanDetect
        else if keyCaddone k then
          if keyX k then .scanPromote else if keyHop k then .scanDoneHop else .scanStay
        else if keyQuiet k then
          if keyTxq k then .scanTxreq else if keyTmo k then .scanSofthop else .scanIdle
        else .scanUnexpected
      else if keyS k = 2 then
        if keyCaddet k then .cadDetect
        else if keyCaddone k then if keyX k then .cadExhausted else .cadNextSf
        else if keyQuiet k then
          if keyTxq k then .cadTxreq else if keyTmo k then .cadSofthop else .cadIdle
        else .cadUnexpected
      else if keyS k = 3 then
        if keyRxdone k then
          if keyCrcerr k then .rxCrcerr else if keyX k then .rxDone else .rxHdrinv
        else if keyRxtout k then if keyHop k then .rxTimeoutHop else .rxTimeout
        else if keyHdrOnly k then .rxHdrseen
        else if keyQuiet k then
          if keyTxq k && !keySm k then .rxTxreq else if keyTmo k then .rxSofttmo else .rxIdle
        else .rxUnexpected
      else if keyS k = 4 then if keyTxq k then .txRun else .txNoreq
      else if keyS k = 5 then
        if keyTxdone k then .txdDone
        else if keyQuiet k then if keyTmo k then .txdTimeout else .txdWait
        else .txdUnexpected
      else .default := by
  have hq := keyQuiet_iff k
  have ho := keyHdrOnly_iff k
  have hm : ∀ v m : BitVec 16, (k &&& m == v) = decide (k &&& m = v) := fun _ _ => by rfl
  rw [keyS_eq]
  simp only [decodeKey, rowTable, List.find?_cons, RowEntry.matches, hm, word_eq_iff, BitVec.getElem_and]
  simp only [keyCaddet, keyCaddone, keyX, keyHop, keyTxq, keyTmo, keyRxdone, keyCrcerr, keyRxtout, keySm, keyTxdone]
  generalize keyQuiet k = q at *
  generalize keyHdrOnly k = o at *
  simp only [BitVec.getLsbD_eq_getElem, Nat.reduceLT]
  simp
  generalize k[0] = b0 at *
  generalize k[1] = b1 at *
  generalize k[2] = b2 at *
  generalize k[3] = b3 at *
  generalize k[4] = b4 at *
  generalize k[5] = b5 at *
  generalize k[6] = b6 at *
  generalize k[7] = b7 at *
  generalize k[8] = b8 at *
  generalize k[9] = b9 at *
  generalize k[10] = b10 at *
  generalize k[11] = b11 at *
  generalize k[12] = b12 at *
  generalize k[13] = b13 at *
  generalize k[14] = b14 at *
  generalize k[15] = b15 at *
  have hq' : (!b0 && (!b1 && (!b2 && (!b3 && (!b4 && (!b5 && (!b6 && !b7))))))) = q :=
    Bool.eq_iff_iff.mpr (by simp [hq])
  have hqx : ∀ x, (!b0 && (!b1 && (!b2 && (!b3 && (!b4 && (!b5 && (!b6 && (!b7 && x)))))))) = (q && x) := by
    intro x
    simp [← hq', Bool.and_assoc]
  have ho' : (!b0 && (!b1 && (!b2 && (!b3 && (b4 && (!b5 && (!b6 && !b7))))))) = o :=
    Bool.eq_iff_iff.mpr (by simp [ho])
  cases b13 <;> cases b14 <;> cases b15 <;> simp [hq', hqx, ho']
  · cases b8 <;> rfl
  · cases b0 <;> cases b2 <;> cases b12 <;> cases q <;> cases b8 <;> cases b11 <;> rfl
  · cases b0 <;> cases b2 <;> cases b12 <;> cases b10 <;> cases q <;> cases b8 <;> cases b11 <;> rfl
  · cases b3 <;> cases q <;> cases b11 <;> rfl
  · cases b6 <;> cases b5 <;> cases b12 <;> cases b7 <;> cases b10 <;> cases o <;> cases q <;> cases b8 <;> cases b9 <;>
      cases b11 <;> rfl

/-- A key meets the condition of the row that it decodes to (rules R101, R102). -/
theorem decodeKey_wf (k : BitVec 16) : ((decodeKey k).instr k).wf = true := by
  rw [decodeKey_eq]
  have h8 : keyS k < 8 := by
    have := k.isLt
    unfold keyS
    omega
  split_ifs <;> simp_all [Row.instr, Instr.wf, keyStray]
  all_goals first
    | omega
    | (cases h : keyTxq k <;> simp_all)

/-- A key that meets a row's condition decodes to that row: the conditions exclude each other (rules R101, R102). -/
theorem decodeKey_of_wf (r : Row) (k : BitVec 16) (h : (r.instr k).wf = true) : decodeKey k = r := by
  rw [decodeKey_eq]
  have hq := keyQuiet_flags k
  have ho := keyHdrOnly_flags k
  cases r <;> simp [Row.instr, Instr.wf, keyStray] at h <;> simp_all
  case default => rcases h with h | h <;> simp [h]
  all_goals
    intro ht
    simp_all

/-! ## Operation words (rules R96, R100) -/

/-- The rows of format OP with a code 0x20 to 0x60 (rule R100). -/
theorem matches_code (n : OpName) (w : BitVec 16) (h : n.matches w = true) : opCode w = opCode n.matchMask.1 := by
  have hh : opCode n.matchMask.2 = 0xFF := by cases n <;> rfl
  simp only [OpName.matches, beq_iff_eq] at h
  rw [← h]
  apply BitVec.eq_of_getLsbD_eq
  intro i hi
  have hm : n.matchMask.2.getLsbD (8 + i) = true := by
    have := congrArg (fun b : BitVec 8 => b.getLsbD i) hh
    simp only [opCode, BitVec.getLsbD_extractLsb', hi, decide_true, Bool.true_and] at this
    rw [this]
    have : i = 0 ∨ i = 1 ∨ i = 2 ∨ i = 3 ∨ i = 4 ∨ i = 5 ∨ i = 6 ∨ i = 7 := by omega
    rcases this with h | h | h | h | h | h | h | h <;> subst h <;> rfl
  simp [opCode, hm]

/-- A row's word has the row's code, whatever its immediate (rule R96). -/
theorem opCode_opWord (n : OpName) (imm : Byte) : opCode (opWord n imm) = opCode n.matchMask.1 := by
  apply BitVec.eq_of_getLsbD_eq
  intro i hi
  simp [opCode, opWord, hi]

/-- The rows of the external interface, codes 0x80 to 0x87 (rule R100). -/
def OpName.external : OpName → Bool
  | .irqEdge | .submitTx | .takePacket | .readStats | .configure | .readState | .reset | .clockAdvance => true
  | _ => false

theorem codeInternal_row (n : OpName) : codeInternal (opCode n.matchMask.1) = !n.external := by
  cases n <;> decide

theorem withEmptyRecord_ok {i j : Instr} {r : OperandRecord} (h : withEmptyRecord i r = .ok j) : r = .empty ∧ j = i := by
  cases r <;> simp_all [withEmptyRecord]

theorem assembleOp_engineSide (n : OpName) (w : BitVec 16) (r : OperandRecord) (i : Instr) (h : assembleOp n w r = .ok i) :
    engineOnly i = !n.external := by
  cases n <;> simp only [assembleOp] at h <;>
    first
    | (rw [(withEmptyRecord_ok h).2]; rfl)
    | (split at h <;> first | (injection h with h; subst h; rfl) | (rw [(withEmptyRecord_ok h).2]; rfl) | cases h)

theorem decode_engineSide (f : Frame) (i : Instr) (h : decode f = .ok i) : engineOnly i = f.internal := by
  cases f with
  | op w r =>
    simp only [decode, decodeOp] at h
    split at h
    · rename_i n hn
      rw [assembleOp_engineSide n w r i h, Frame.internal, matches_code n w, codeInternal_row]
      simpa using List.find?_some hn
    · cases h
  | eval k =>
    simp only [decode, Except.ok.injEq] at h
    subst h
    cases decodeKey k <;> rfl
  | spi b l =>
    simp only [decode, decodeSpi] at h
    split at h
    · cases h
    · split at h <;> first | (cases h; rfl) | cases h

/-- An operation of the FSM engine's side is the engine's, and no external one is (rules R20, R100). -/
theorem Machine.Agent.presents_engineSide (ag : Agent) (i : Instr) :
    (engineOnly i = true → ag.presents i = (ag == .fsmEngine)) ∧
      (engineOnly i = false → ag.presents i = true → ag ≠ .fsmEngine) := by
  cases i <;> cases ag <;> simp [engineOnly, Agent.presents]

end Sys2Proof
end

