-- ==== Sys2Proof/Laws/State.lean ====
section
/-! SUPPORT. One lemma per field per state update, true by rfl. For each update, a lemma per field that it changes, and one
frame lemma whose parts are the fields that it does not change: simp uses each part as a rule of its own. -/

namespace Sys2Proof.Machine

open Sys2Proof

/-! ## What reads of a state depend on -/

/-- The parameters' views of a state depend on the parameters, the clock and the two configuration flags alone. -/
theorem State.views_congr {s t : State} (hp : t.par = s.par) (hc : t.clock = s.clock) (hh : t.cfgHop = s.cfgHop)
    (hk : t.cfgCad = s.cfgCad) :
    t.regByte = s.regByte ∧ t.planAt = s.planAt ∧ t.numChannels = s.numChannels ∧ t.scannerMode = s.scannerMode ∧
    t.wrote = s.wrote ∧ t.didRead = s.didRead ∧ t.modeEvents = s.modeEvents ∧ t.frequencyEvents = s.frequencyEvents ∧
    t.rateEvents = s.rateEvents ∧ t.rateLog = s.rateLog := by
  cases s
  cases t
  simp only at hp hc hh hk
  subst hp hc hh hk
  exact ⟨rfl, rfl, rfl, rfl, rfl, rfl, rfl, rfl, rfl, rfl⟩

/-- What a read of the chip returns depends on the parameters and the chip oracle alone (rule R66). -/
theorem State.regValue_congr {s t : State} (hp : t.par = s.par) (ha : t.chipAnswers = s.chipAnswers)
    (hd : t.draws = s.draws) : t.oracle = s.oracle ∧ t.regValue = s.regValue := by
  cases s
  cases t
  simp only at hp ha hd
  subst hp ha hd
  exact ⟨rfl, rfl⟩

/-- The views of a state, and what a read of the chip returns. -/
theorem State.allViews_congr {s t : State} (hp : t.par = s.par) (hc : t.clock = s.clock) (hh : t.cfgHop = s.cfgHop)
    (hk : t.cfgCad = s.cfgCad) (ha : t.chipAnswers = s.chipAnswers) (hd : t.draws = s.draws) :
    t.regByte = s.regByte ∧ t.planAt = s.planAt ∧ t.numChannels = s.numChannels ∧ t.scannerMode = s.scannerMode ∧
    t.wrote = s.wrote ∧ t.didRead = s.didRead ∧ t.modeEvents = s.modeEvents ∧ t.frequencyEvents = s.frequencyEvents ∧
    t.rateEvents = s.rateEvents ∧ t.rateLog = s.rateLog ∧ t.oracle = s.oracle ∧ t.regValue = s.regValue := by
  have v := State.views_congr hp hc hh hk
  have r := State.regValue_congr hp ha hd
  exact ⟨v.1, v.2.1, v.2.2.1, v.2.2.2.1, v.2.2.2.2.1, v.2.2.2.2.2.1, v.2.2.2.2.2.2.1, v.2.2.2.2.2.2.2.1,
    v.2.2.2.2.2.2.2.2.1, v.2.2.2.2.2.2.2.2.2, r.1, r.2⟩

/-! ## Ops -/

@[simp] theorem State.setSf_sf (s : State) (v : BitVec 4) : (s.setSf v).sf = v := rfl

@[simp] theorem State.setSf_frame (s : State) (v : BitVec 4) :
    (s.setSf v).radioState = s.radioState ∧ (s.setSf v).passActive = s.passActive ∧ (s.setSf v).booted = s.booted ∧
    (s.setSf v).txPhase = s.txPhase ∧ (s.setSf v).ch = s.ch ∧ (s.setSf v).cfgSF = s.cfgSF ∧
    (s.setSf v).cfgHop = s.cfgHop ∧ (s.setSf v).cfgCad = s.cfgCad ∧ (s.setSf v).cfgCh = s.cfgCh ∧
    (s.setSf v).cfg0 = s.cfg0 ∧ (s.setSf v).pending = s.pending ∧ (s.setSf v).eventTime = s.eventTime ∧
    (s.setSf v).doneTime = s.doneTime ∧ (s.setSf v).clock = s.clock ∧ (s.setSf v).lastRssi = s.lastRssi ∧
    (s.setSf v).inValid = s.inValid ∧ (s.setSf v).inbound = s.inbound ∧ (s.setSf v).outValid = s.outValid ∧
    (s.setSf v).outbound = s.outbound ∧ (s.setSf v).stats = s.stats ∧ (s.setSf v).halted = s.halted ∧
    (s.setSf v).modeShadow = s.modeShadow ∧ (s.setSf v).faults = s.faults ∧ (s.setSf v).log = s.log ∧
    (s.setSf v).history = s.history ∧ (s.setSf v).par = s.par ∧ (s.setSf v).inbox = s.inbox ∧
    (s.setSf v).waiting = s.waiting ∧ (s.setSf v).chipAnswers = s.chipAnswers ∧ (s.setSf v).draws = s.draws ∧
    (s.setSf v).result = s.result :=
  ⟨rfl, rfl, rfl, rfl, rfl, rfl, rfl, rfl, rfl, rfl, rfl, rfl, rfl, rfl, rfl, rfl, rfl, rfl, rfl, rfl, rfl, rfl, rfl,
    rfl, rfl, rfl, rfl, rfl, rfl, rfl, rfl⟩

@[simp] theorem State.setSf_views (s : State) (v : BitVec 4) :
    (s.setSf v).regByte = s.regByte ∧ (s.setSf v).planAt = s.planAt ∧ (s.setSf v).numChannels = s.numChannels ∧
    (s.setSf v).scannerMode = s.scannerMode ∧ (s.setSf v).wrote = s.wrote ∧ (s.setSf v).didRead = s.didRead ∧
    (s.setSf v).modeEvents = s.modeEvents ∧ (s.setSf v).frequencyEvents = s.frequencyEvents ∧
    (s.setSf v).rateEvents = s.rateEvents ∧ (s.setSf v).rateLog = s.rateLog ∧ (s.setSf v).oracle = s.oracle ∧
    (s.setSf v).regValue = s.regValue :=
  State.allViews_congr rfl rfl rfl rfl rfl rfl

@[simp] theorem State.setState_radioState (s : State) (st : BitVec 3) : (s.setState st).radioState = st := rfl

@[simp] theorem State.setState_frame (s : State) (st : BitVec 3) :
    (s.setState st).passActive = s.passActive ∧ (s.setState st).booted = s.booted ∧
    (s.setState st).txPhase = s.txPhase ∧ (s.setState st).sf = s.sf ∧ (s.setState st).ch = s.ch ∧
    (s.setState st).cfgSF = s.cfgSF ∧ (s.setState st).cfgHop = s.cfgHop ∧ (s.setState st).cfgCad = s.cfgCad ∧
    (s.setState st).cfgCh = s.cfgCh ∧ (s.setState st).cfg0 = s.cfg0 ∧ (s.setState st).pending = s.pending ∧
    (s.setState st).eventTime = s.eventTime ∧ (s.setState st).doneTime = s.doneTime ∧ (s.setState st).clock = s.clock ∧
    (s.setState st).lastRssi = s.lastRssi ∧ (s.setState st).inValid = s.inValid ∧ (s.setState st).inbound = s.inbound ∧
    (s.setState st).outValid = s.outValid ∧ (s.setState st).outbound = s.outbound ∧ (s.setState st).stats = s.stats ∧
    (s.setState st).halted = s.halted ∧ (s.setState st).modeShadow = s.modeShadow ∧ (s.setState st).faults = s.faults ∧
    (s.setState st).log = s.log ∧ (s.setState st).history = s.history ∧ (s.setState st).par = s.par ∧
    (s.setState st).inbox = s.inbox ∧ (s.setState st).waiting = s.waiting ∧
    (s.setState st).chipAnswers = s.chipAnswers ∧ (s.setState st).draws = s.draws ∧ (s.setState st).result = s.result :=
  ⟨rfl, rfl, rfl, rfl, rfl, rfl, rfl, rfl, rfl, rfl, rfl, rfl, rfl, rfl, rfl, rfl, rfl, rfl, rfl, rfl, rfl, rfl, rfl,
    rfl, rfl, rfl, rfl, rfl, rfl, rfl, rfl⟩

@[simp] theorem State.setState_views (s : State) (st : BitVec 3) :
    (s.setState st).regByte = s.regByte ∧ (s.setState st).planAt = s.planAt ∧
    (s.setState st).numChannels = s.numChannels ∧ (s.setState st).scannerMode = s.scannerMode ∧
    (s.setState st).wrote = s.wrote ∧ (s.setState st).didRead = s.didRead ∧ (s.setState st).modeEvents = s.modeEvents ∧
    (s.setState st).frequencyEvents = s.frequencyEvents ∧ (s.setState st).rateEvents = s.rateEvents ∧
    (s.setState st).rateLog = s.rateLog ∧ (s.setState st).oracle = s.oracle ∧ (s.setState st).regValue = s.regValue :=
  State.allViews_congr rfl rfl rfl rfl rfl rfl

@[simp] theorem State.consume_outValid (s : State) : s.consume.outValid = false := rfl

@[simp] theorem State.consume_frame (s : State) :
    s.consume.radioState = s.radioState ∧ s.consume.passActive = s.passActive ∧ s.consume.booted = s.booted ∧
    s.consume.txPhase = s.txPhase ∧ s.consume.sf = s.sf ∧ s.consume.ch = s.ch ∧ s.consume.cfgSF = s.cfgSF ∧
    s.consume.cfgHop = s.cfgHop ∧ s.consume.cfgCad = s.cfgCad ∧ s.consume.cfgCh = s.cfgCh ∧ s.consume.cfg0 = s.cfg0 ∧
    s.consume.pending = s.pending ∧ s.consume.eventTime = s.eventTime ∧ s.consume.doneTime = s.doneTime ∧
    s.consume.clock = s.clock ∧ s.consume.lastRssi = s.lastRssi ∧ s.consume.inValid = s.inValid ∧
    s.consume.inbound = s.inbound ∧ s.consume.outbound = s.outbound ∧ s.consume.stats = s.stats ∧
    s.consume.halted = s.halted ∧ s.consume.modeShadow = s.modeShadow ∧ s.consume.faults = s.faults ∧
    s.consume.log = s.log ∧ s.consume.history = s.history ∧ s.consume.par = s.par ∧ s.consume.inbox = s.inbox ∧
    s.consume.waiting = s.waiting ∧ s.consume.chipAnswers = s.chipAnswers ∧ s.consume.draws = s.draws ∧
    s.consume.result = s.result :=
  ⟨rfl, rfl, rfl, rfl, rfl, rfl, rfl, rfl, rfl, rfl, rfl, rfl, rfl, rfl, rfl, rfl, rfl, rfl, rfl, rfl, rfl, rfl, rfl,
    rfl, rfl, rfl, rfl, rfl, rfl, rfl, rfl⟩

@[simp] theorem State.consume_views (s : State) :
    s.consume.regByte = s.regByte ∧ s.consume.planAt = s.planAt ∧ s.consume.numChannels = s.numChannels ∧
    s.consume.scannerMode = s.scannerMode ∧ s.consume.wrote = s.wrote ∧ s.consume.didRead = s.didRead ∧
    s.consume.modeEvents = s.modeEvents ∧ s.consume.frequencyEvents = s.frequencyEvents ∧
    s.consume.rateEvents = s.rateEvents ∧ s.consume.rateLog = s.rateLog ∧ s.consume.oracle = s.oracle ∧
    s.consume.regValue = s.regValue :=
  State.allViews_congr rfl rfl rfl rfl rfl rfl

@[simp] theorem State.setPhase_txPhase (s : State) (p : TxPhase) : (s.setPhase p).txPhase = p := rfl

@[simp] theorem State.setPhase_frame (s : State) (p : TxPhase) :
    (s.setPhase p).radioState = s.radioState ∧ (s.setPhase p).passActive = s.passActive ∧
    (s.setPhase p).booted = s.booted ∧ (s.setPhase p).sf = s.sf ∧ (s.setPhase p).ch = s.ch ∧
    (s.setPhase p).cfgSF = s.cfgSF ∧ (s.setPhase p).cfgHop = s.cfgHop ∧ (s.setPhase p).cfgCad = s.cfgCad ∧
    (s.setPhase p).cfgCh = s.cfgCh ∧ (s.setPhase p).cfg0 = s.cfg0 ∧ (s.setPhase p).pending = s.pending ∧
    (s.setPhase p).eventTime = s.eventTime ∧ (s.setPhase p).doneTime = s.doneTime ∧ (s.setPhase p).clock = s.clock ∧
    (s.setPhase p).lastRssi = s.lastRssi ∧ (s.setPhase p).inValid = s.inValid ∧ (s.setPhase p).inbound = s.inbound ∧
    (s.setPhase p).outValid = s.outValid ∧ (s.setPhase p).outbound = s.outbound ∧ (s.setPhase p).stats = s.stats ∧
    (s.setPhase p).halted = s.halted ∧ (s.setPhase p).modeShadow = s.modeShadow ∧ (s.setPhase p).faults = s.faults ∧
    (s.setPhase p).log = s.log ∧ (s.setPhase p).history = s.history ∧ (s.setPhase p).par = s.par ∧
    (s.setPhase p).inbox = s.inbox ∧ (s.setPhase p).waiting = s.waiting ∧ (s.setPhase p).chipAnswers = s.chipAnswers ∧
    (s.setPhase p).draws = s.draws ∧ (s.setPhase p).result = s.result :=
  ⟨rfl, rfl, rfl, rfl, rfl, rfl, rfl, rfl, rfl, rfl, rfl, rfl, rfl, rfl, rfl, rfl, rfl, rfl, rfl, rfl, rfl, rfl, rfl,
    rfl, rfl, rfl, rfl, rfl, rfl, rfl, rfl⟩

@[simp] theorem State.setPhase_views (s : State) (p : TxPhase) :
    (s.setPhase p).regByte = s.regByte ∧ (s.setPhase p).planAt = s.planAt ∧
    (s.setPhase p).numChannels = s.numChannels ∧ (s.setPhase p).scannerMode = s.scannerMode ∧
    (s.setPhase p).wrote = s.wrote ∧ (s.setPhase p).didRead = s.didRead ∧ (s.setPhase p).modeEvents = s.modeEvents ∧
    (s.setPhase p).frequencyEvents = s.frequencyEvents ∧ (s.setPhase p).rateEvents = s.rateEvents ∧
    (s.setPhase p).rateLog = s.rateLog ∧ (s.setPhase p).oracle = s.oracle ∧ (s.setPhase p).regValue = s.regValue :=
  State.allViews_congr rfl rfl rfl rfl rfl rfl

@[simp] theorem State.deliver_inbound (s : State) (p : InPacket) : (s.deliver p).inbound = p := rfl

@[simp] theorem State.deliver_inValid (s : State) (p : InPacket) : (s.deliver p).inValid = true := rfl

@[simp] theorem State.deliver_frame (s : State) (p : InPacket) :
    (s.deliver p).radioState = s.radioState ∧ (s.deliver p).passActive = s.passActive ∧
    (s.deliver p).booted = s.booted ∧ (s.deliver p).txPhase = s.txPhase ∧ (s.deliver p).sf = s.sf ∧
    (s.deliver p).ch = s.ch ∧ (s.deliver p).cfgSF = s.cfgSF ∧ (s.deliver p).cfgHop = s.cfgHop ∧
    (s.deliver p).cfgCad = s.cfgCad ∧ (s.deliver p).cfgCh = s.cfgCh ∧ (s.deliver p).cfg0 = s.cfg0 ∧
    (s.deliver p).pending = s.pending ∧ (s.deliver p).eventTime = s.eventTime ∧ (s.deliver p).doneTime = s.doneTime ∧
    (s.deliver p).clock = s.clock ∧ (s.deliver p).lastRssi = s.lastRssi ∧ (s.deliver p).outValid = s.outValid ∧
    (s.deliver p).outbound = s.outbound ∧ (s.deliver p).stats = s.stats ∧ (s.deliver p).halted = s.halted ∧
    (s.deliver p).modeShadow = s.modeShadow ∧ (s.deliver p).faults = s.faults ∧ (s.deliver p).log = s.log ∧
    (s.deliver p).history = s.history ∧ (s.deliver p).par = s.par ∧ (s.deliver p).inbox = s.inbox ∧
    (s.deliver p).waiting = s.waiting ∧ (s.deliver p).chipAnswers = s.chipAnswers ∧ (s.deliver p).draws = s.draws ∧
    (s.deliver p).result = s.result :=
  ⟨rfl, rfl, rfl, rfl, rfl, rfl, rfl, rfl, rfl, rfl, rfl, rfl, rfl, rfl, rfl, rfl, rfl, rfl, rfl, rfl, rfl, rfl, rfl,
    rfl, rfl, rfl, rfl, rfl, rfl, rfl⟩

@[simp] theorem State.deliver_views (s : State) (p : InPacket) :
    (s.deliver p).regByte = s.regByte ∧ (s.deliver p).planAt = s.planAt ∧ (s.deliver p).numChannels = s.numChannels ∧
    (s.deliver p).scannerMode = s.scannerMode ∧ (s.deliver p).wrote = s.wrote ∧ (s.deliver p).didRead = s.didRead ∧
    (s.deliver p).modeEvents = s.modeEvents ∧ (s.deliver p).frequencyEvents = s.frequencyEvents ∧
    (s.deliver p).rateEvents = s.rateEvents ∧ (s.deliver p).rateLog = s.rateLog ∧ (s.deliver p).oracle = s.oracle ∧
    (s.deliver p).regValue = s.regValue :=
  State.allViews_congr rfl rfl rfl rfl rfl rfl

@[simp] theorem State.stampNow_eventTime (s : State) : s.stampNow.eventTime = s.clock := rfl

@[simp] theorem State.stampNow_frame (s : State) :
    s.stampNow.radioState = s.radioState ∧ s.stampNow.passActive = s.passActive ∧ s.stampNow.booted = s.booted ∧
    s.stampNow.txPhase = s.txPhase ∧ s.stampNow.sf = s.sf ∧ s.stampNow.ch = s.ch ∧ s.stampNow.cfgSF = s.cfgSF ∧
    s.stampNow.cfgHop = s.cfgHop ∧ s.stampNow.cfgCad = s.cfgCad ∧ s.stampNow.cfgCh = s.cfgCh ∧
    s.stampNow.cfg0 = s.cfg0 ∧ s.stampNow.pending = s.pending ∧ s.stampNow.doneTime = s.doneTime ∧
    s.stampNow.clock = s.clock ∧ s.stampNow.lastRssi = s.lastRssi ∧ s.stampNow.inValid = s.inValid ∧
    s.stampNow.inbound = s.inbound ∧ s.stampNow.outValid = s.outValid ∧ s.stampNow.outbound = s.outbound ∧
    s.stampNow.stats = s.stats ∧ s.stampNow.halted = s.halted ∧ s.stampNow.modeShadow = s.modeShadow ∧
    s.stampNow.faults = s.faults ∧ s.stampNow.log = s.log ∧ s.stampNow.history = s.history ∧ s.stampNow.par = s.par ∧
    s.stampNow.inbox = s.inbox ∧ s.stampNow.waiting = s.waiting ∧ s.stampNow.chipAnswers = s.chipAnswers ∧
    s.stampNow.draws = s.draws ∧ s.stampNow.result = s.result :=
  ⟨rfl, rfl, rfl, rfl, rfl, rfl, rfl, rfl, rfl, rfl, rfl, rfl, rfl, rfl, rfl, rfl, rfl, rfl, rfl, rfl, rfl, rfl, rfl,
    rfl, rfl, rfl, rfl, rfl, rfl, rfl, rfl⟩

@[simp] theorem State.stampNow_views (s : State) :
    s.stampNow.regByte = s.regByte ∧ s.stampNow.planAt = s.planAt ∧ s.stampNow.numChannels = s.numChannels ∧
    s.stampNow.scannerMode = s.scannerMode ∧ s.stampNow.wrote = s.wrote ∧ s.stampNow.didRead = s.didRead ∧
    s.stampNow.modeEvents = s.modeEvents ∧ s.stampNow.frequencyEvents = s.frequencyEvents ∧
    s.stampNow.rateEvents = s.rateEvents ∧ s.stampNow.rateLog = s.rateLog ∧ s.stampNow.oracle = s.oracle ∧
    s.stampNow.regValue = s.regValue :=
  State.allViews_congr rfl rfl rfl rfl rfl rfl

@[simp] theorem State.stampDone_doneTime (s : State) : s.stampDone.doneTime = s.clock := rfl

@[simp] theorem State.stampDone_frame (s : State) :
    s.stampDone.radioState = s.radioState ∧ s.stampDone.passActive = s.passActive ∧ s.stampDone.booted = s.booted ∧
    s.stampDone.txPhase = s.txPhase ∧ s.stampDone.sf = s.sf ∧ s.stampDone.ch = s.ch ∧ s.stampDone.cfgSF = s.cfgSF ∧
    s.stampDone.cfgHop = s.cfgHop ∧ s.stampDone.cfgCad = s.cfgCad ∧ s.stampDone.cfgCh = s.cfgCh ∧
    s.stampDone.cfg0 = s.cfg0 ∧ s.stampDone.pending = s.pending ∧ s.stampDone.eventTime = s.eventTime ∧
    s.stampDone.clock = s.clock ∧ s.stampDone.lastRssi = s.lastRssi ∧ s.stampDone.inValid = s.inValid ∧
    s.stampDone.inbound = s.inbound ∧ s.stampDone.outValid = s.outValid ∧ s.stampDone.outbound = s.outbound ∧
    s.stampDone.stats = s.stats ∧ s.stampDone.halted = s.halted ∧ s.stampDone.modeShadow = s.modeShadow ∧
    s.stampDone.faults = s.faults ∧ s.stampDone.log = s.log ∧ s.stampDone.history = s.history ∧
    s.stampDone.par = s.par ∧ s.stampDone.inbox = s.inbox ∧ s.stampDone.waiting = s.waiting ∧
    s.stampDone.chipAnswers = s.chipAnswers ∧ s.stampDone.draws = s.draws ∧ s.stampDone.result = s.result :=
  ⟨rfl, rfl, rfl, rfl, rfl, rfl, rfl, rfl, rfl, rfl, rfl, rfl, rfl, rfl, rfl, rfl, rfl, rfl, rfl, rfl, rfl, rfl, rfl,
    rfl, rfl, rfl, rfl, rfl, rfl, rfl, rfl⟩

@[simp] theorem State.stampDone_views (s : State) :
    s.stampDone.regByte = s.regByte ∧ s.stampDone.planAt = s.planAt ∧ s.stampDone.numChannels = s.numChannels ∧
    s.stampDone.scannerMode = s.scannerMode ∧ s.stampDone.wrote = s.wrote ∧ s.stampDone.didRead = s.didRead ∧
    s.stampDone.modeEvents = s.modeEvents ∧ s.stampDone.frequencyEvents = s.frequencyEvents ∧
    s.stampDone.rateEvents = s.rateEvents ∧ s.stampDone.rateLog = s.rateLog ∧ s.stampDone.oracle = s.oracle ∧
    s.stampDone.regValue = s.regValue :=
  State.allViews_congr rfl rfl rfl rfl rfl rfl

@[simp] theorem State.logEntry_log (s : State) (code : LogCode) (info : List Nat) :
    (s.logEntry code info).log = s.log ++ [⟨code, info, s.clock⟩] := rfl

@[simp] theorem State.logEntry_frame (s : State) (code : LogCode) (info : List Nat) :
    (s.logEntry code info).radioState = s.radioState ∧ (s.logEntry code info).passActive = s.passActive ∧
    (s.logEntry code info).booted = s.booted ∧ (s.logEntry code info).txPhase = s.txPhase ∧
    (s.logEntry code info).sf = s.sf ∧ (s.logEntry code info).ch = s.ch ∧ (s.logEntry code info).cfgSF = s.cfgSF ∧
    (s.logEntry code info).cfgHop = s.cfgHop ∧ (s.logEntry code info).cfgCad = s.cfgCad ∧
    (s.logEntry code info).cfgCh = s.cfgCh ∧ (s.logEntry code info).cfg0 = s.cfg0 ∧
    (s.logEntry code info).pending = s.pending ∧ (s.logEntry code info).eventTime = s.eventTime ∧
    (s.logEntry code info).doneTime = s.doneTime ∧ (s.logEntry code info).clock = s.clock ∧
    (s.logEntry code info).lastRssi = s.lastRssi ∧ (s.logEntry code info).inValid = s.inValid ∧
    (s.logEntry code info).inbound = s.inbound ∧ (s.logEntry code info).outValid = s.outValid ∧
    (s.logEntry code info).outbound = s.outbound ∧ (s.logEntry code info).stats = s.stats ∧
    (s.logEntry code info).halted = s.halted ∧ (s.logEntry code info).modeShadow = s.modeShadow ∧
    (s.logEntry code info).faults = s.faults ∧ (s.logEntry code info).history = s.history ∧
    (s.logEntry code info).par = s.par ∧ (s.logEntry code info).inbox = s.inbox ∧
    (s.logEntry code info).waiting = s.waiting ∧ (s.logEntry code info).chipAnswers = s.chipAnswers ∧
    (s.logEntry code info).draws = s.draws ∧ (s.logEntry code info).result = s.result :=
  ⟨rfl, rfl, rfl, rfl, rfl, rfl, rfl, rfl, rfl, rfl, rfl, rfl, rfl, rfl, rfl, rfl, rfl, rfl, rfl, rfl, rfl, rfl, rfl,
    rfl, rfl, rfl, rfl, rfl, rfl, rfl, rfl⟩

@[simp] theorem State.logEntry_views (s : State) (code : LogCode) (info : List Nat) :
    (s.logEntry code info).regByte = s.regByte ∧ (s.logEntry code info).planAt = s.planAt ∧
    (s.logEntry code info).numChannels = s.numChannels ∧ (s.logEntry code info).scannerMode = s.scannerMode ∧
    (s.logEntry code info).wrote = s.wrote ∧ (s.logEntry code info).didRead = s.didRead ∧
    (s.logEntry code info).modeEvents = s.modeEvents ∧ (s.logEntry code info).frequencyEvents = s.frequencyEvents ∧
    (s.logEntry code info).rateEvents = s.rateEvents ∧ (s.logEntry code info).rateLog = s.rateLog ∧
    (s.logEntry code info).oracle = s.oracle ∧ (s.logEntry code info).regValue = s.regValue :=
  State.allViews_congr rfl rfl rfl rfl rfl rfl

@[simp] theorem State.raiseFault_faults (s : State) (f : FaultName) :
    (s.raiseFault f).faults = if s.faults.contains f then s.faults else s.faults ++ [f] := rfl

@[simp] theorem State.raiseFault_frame (s : State) (f : FaultName) :
    (s.raiseFault f).radioState = s.radioState ∧ (s.raiseFault f).passActive = s.passActive ∧
    (s.raiseFault f).booted = s.booted ∧ (s.raiseFault f).txPhase = s.txPhase ∧ (s.raiseFault f).sf = s.sf ∧
    (s.raiseFault f).ch = s.ch ∧ (s.raiseFault f).cfgSF = s.cfgSF ∧ (s.raiseFault f).cfgHop = s.cfgHop ∧
    (s.raiseFault f).cfgCad = s.cfgCad ∧ (s.raiseFault f).cfgCh = s.cfgCh ∧ (s.raiseFault f).cfg0 = s.cfg0 ∧
    (s.raiseFault f).pending = s.pending ∧ (s.raiseFault f).eventTime = s.eventTime ∧
    (s.raiseFault f).doneTime = s.doneTime ∧ (s.raiseFault f).clock = s.clock ∧
    (s.raiseFault f).lastRssi = s.lastRssi ∧ (s.raiseFault f).inValid = s.inValid ∧
    (s.raiseFault f).inbound = s.inbound ∧ (s.raiseFault f).outValid = s.outValid ∧
    (s.raiseFault f).outbound = s.outbound ∧ (s.raiseFault f).stats = s.stats ∧ (s.raiseFault f).halted = s.halted ∧
    (s.raiseFault f).modeShadow = s.modeShadow ∧ (s.raiseFault f).log = s.log ∧ (s.raiseFault f).history = s.history ∧
    (s.raiseFault f).par = s.par ∧ (s.raiseFault f).inbox = s.inbox ∧ (s.raiseFault f).waiting = s.waiting ∧
    (s.raiseFault f).chipAnswers = s.chipAnswers ∧ (s.raiseFault f).draws = s.draws ∧
    (s.raiseFault f).result = s.result :=
  ⟨rfl, rfl, rfl, rfl, rfl, rfl, rfl, rfl, rfl, rfl, rfl, rfl, rfl, rfl, rfl, rfl, rfl, rfl, rfl, rfl, rfl, rfl, rfl,
    rfl, rfl, rfl, rfl, rfl, rfl, rfl, rfl⟩

@[simp] theorem State.raiseFault_views (s : State) (f : FaultName) :
    (s.raiseFault f).regByte = s.regByte ∧ (s.raiseFault f).planAt = s.planAt ∧
    (s.raiseFault f).numChannels = s.numChannels ∧ (s.raiseFault f).scannerMode = s.scannerMode ∧
    (s.raiseFault f).wrote = s.wrote ∧ (s.raiseFault f).didRead = s.didRead ∧
    (s.raiseFault f).modeEvents = s.modeEvents ∧ (s.raiseFault f).frequencyEvents = s.frequencyEvents ∧
    (s.raiseFault f).rateEvents = s.rateEvents ∧ (s.raiseFault f).rateLog = s.rateLog ∧
    (s.raiseFault f).oracle = s.oracle ∧ (s.raiseFault f).regValue = s.regValue :=
  State.allViews_congr rfl rfl rfl rfl rfl rfl

@[simp] theorem State.refuse_log (s : State) (c : RefuseCode) :
    (s.refuse c).log = if c = .badOp then s.log ++ [⟨.badOp, [], s.clock⟩] else s.log := rfl

@[simp] theorem State.refuse_result (s : State) (c : RefuseCode) : (s.refuse c).result = .refused c := rfl

@[simp] theorem State.refuse_frame (s : State) (c : RefuseCode) :
    (s.refuse c).radioState = s.radioState ∧ (s.refuse c).passActive = s.passActive ∧ (s.refuse c).booted = s.booted ∧
    (s.refuse c).txPhase = s.txPhase ∧ (s.refuse c).sf = s.sf ∧ (s.refuse c).ch = s.ch ∧ (s.refuse c).cfgSF = s.cfgSF ∧
    (s.refuse c).cfgHop = s.cfgHop ∧ (s.refuse c).cfgCad = s.cfgCad ∧ (s.refuse c).cfgCh = s.cfgCh ∧
    (s.refuse c).cfg0 = s.cfg0 ∧ (s.refuse c).pending = s.pending ∧ (s.refuse c).eventTime = s.eventTime ∧
    (s.refuse c).doneTime = s.doneTime ∧ (s.refuse c).clock = s.clock ∧ (s.refuse c).lastRssi = s.lastRssi ∧
    (s.refuse c).inValid = s.inValid ∧ (s.refuse c).inbound = s.inbound ∧ (s.refuse c).outValid = s.outValid ∧
    (s.refuse c).outbound = s.outbound ∧ (s.refuse c).stats = s.stats ∧ (s.refuse c).halted = s.halted ∧
    (s.refuse c).modeShadow = s.modeShadow ∧ (s.refuse c).faults = s.faults ∧ (s.refuse c).history = s.history ∧
    (s.refuse c).par = s.par ∧ (s.refuse c).inbox = s.inbox ∧ (s.refuse c).waiting = s.waiting ∧
    (s.refuse c).chipAnswers = s.chipAnswers ∧ (s.refuse c).draws = s.draws :=
  ⟨rfl, rfl, rfl, rfl, rfl, rfl, rfl, rfl, rfl, rfl, rfl, rfl, rfl, rfl, rfl, rfl, rfl, rfl, rfl, rfl, rfl, rfl, rfl,
    rfl, rfl, rfl, rfl, rfl, rfl, rfl⟩

@[simp] theorem State.refuse_views (s : State) (c : RefuseCode) :
    (s.refuse c).regByte = s.regByte ∧ (s.refuse c).planAt = s.planAt ∧ (s.refuse c).numChannels = s.numChannels ∧
    (s.refuse c).scannerMode = s.scannerMode ∧ (s.refuse c).wrote = s.wrote ∧ (s.refuse c).didRead = s.didRead ∧
    (s.refuse c).modeEvents = s.modeEvents ∧ (s.refuse c).frequencyEvents = s.frequencyEvents ∧
    (s.refuse c).rateEvents = s.rateEvents ∧ (s.refuse c).rateLog = s.rateLog ∧ (s.refuse c).oracle = s.oracle ∧
    (s.refuse c).regValue = s.regValue :=
  State.allViews_congr rfl rfl rfl rfl rfl rfl

@[simp] theorem State.answer_result (s : State) (r : OpResult) : (s.answer r).result = r := rfl

@[simp] theorem State.answer_frame (s : State) (r : OpResult) :
    (s.answer r).radioState = s.radioState ∧ (s.answer r).passActive = s.passActive ∧ (s.answer r).booted = s.booted ∧
    (s.answer r).txPhase = s.txPhase ∧ (s.answer r).sf = s.sf ∧ (s.answer r).ch = s.ch ∧ (s.answer r).cfgSF = s.cfgSF ∧
    (s.answer r).cfgHop = s.cfgHop ∧ (s.answer r).cfgCad = s.cfgCad ∧ (s.answer r).cfgCh = s.cfgCh ∧
    (s.answer r).cfg0 = s.cfg0 ∧ (s.answer r).pending = s.pending ∧ (s.answer r).eventTime = s.eventTime ∧
    (s.answer r).doneTime = s.doneTime ∧ (s.answer r).clock = s.clock ∧ (s.answer r).lastRssi = s.lastRssi ∧
    (s.answer r).inValid = s.inValid ∧ (s.answer r).inbound = s.inbound ∧ (s.answer r).outValid = s.outValid ∧
    (s.answer r).outbound = s.outbound ∧ (s.answer r).stats = s.stats ∧ (s.answer r).halted = s.halted ∧
    (s.answer r).modeShadow = s.modeShadow ∧ (s.answer r).faults = s.faults ∧ (s.answer r).log = s.log ∧
    (s.answer r).history = s.history ∧ (s.answer r).par = s.par ∧ (s.answer r).inbox = s.inbox ∧
    (s.answer r).waiting = s.waiting ∧ (s.answer r).chipAnswers = s.chipAnswers ∧ (s.answer r).draws = s.draws :=
  ⟨rfl, rfl, rfl, rfl, rfl, rfl, rfl, rfl, rfl, rfl, rfl, rfl, rfl, rfl, rfl, rfl, rfl, rfl, rfl, rfl, rfl, rfl, rfl,
    rfl, rfl, rfl, rfl, rfl, rfl, rfl, rfl⟩

@[simp] theorem State.answer_views (s : State) (r : OpResult) :
    (s.answer r).regByte = s.regByte ∧ (s.answer r).planAt = s.planAt ∧ (s.answer r).numChannels = s.numChannels ∧
    (s.answer r).scannerMode = s.scannerMode ∧ (s.answer r).wrote = s.wrote ∧ (s.answer r).didRead = s.didRead ∧
    (s.answer r).modeEvents = s.modeEvents ∧ (s.answer r).frequencyEvents = s.frequencyEvents ∧
    (s.answer r).rateEvents = s.rateEvents ∧ (s.answer r).rateLog = s.rateLog ∧ (s.answer r).oracle = s.oracle ∧
    (s.answer r).regValue = s.regValue :=
  State.allViews_congr rfl rfl rfl rfl rfl rfl

@[simp] theorem State.park_waiting (s : State) (i : Instr) : (s.park i).waiting = s.waiting ++ [i] := rfl

@[simp] theorem State.park_frame (s : State) (i : Instr) :
    (s.park i).radioState = s.radioState ∧ (s.park i).passActive = s.passActive ∧ (s.park i).booted = s.booted ∧
    (s.park i).txPhase = s.txPhase ∧ (s.park i).sf = s.sf ∧ (s.park i).ch = s.ch ∧ (s.park i).cfgSF = s.cfgSF ∧
    (s.park i).cfgHop = s.cfgHop ∧ (s.park i).cfgCad = s.cfgCad ∧ (s.park i).cfgCh = s.cfgCh ∧
    (s.park i).cfg0 = s.cfg0 ∧ (s.park i).pending = s.pending ∧ (s.park i).eventTime = s.eventTime ∧
    (s.park i).doneTime = s.doneTime ∧ (s.park i).clock = s.clock ∧ (s.park i).lastRssi = s.lastRssi ∧
    (s.park i).inValid = s.inValid ∧ (s.park i).inbound = s.inbound ∧ (s.park i).outValid = s.outValid ∧
    (s.park i).outbound = s.outbound ∧ (s.park i).stats = s.stats ∧ (s.park i).halted = s.halted ∧
    (s.park i).modeShadow = s.modeShadow ∧ (s.park i).faults = s.faults ∧ (s.park i).log = s.log ∧
    (s.park i).history = s.history ∧ (s.park i).par = s.par ∧ (s.park i).inbox = s.inbox ∧
    (s.park i).chipAnswers = s.chipAnswers ∧ (s.park i).draws = s.draws ∧ (s.park i).result = s.result :=
  ⟨rfl, rfl, rfl, rfl, rfl, rfl, rfl, rfl, rfl, rfl, rfl, rfl, rfl, rfl, rfl, rfl, rfl, rfl, rfl, rfl, rfl, rfl, rfl,
    rfl, rfl, rfl, rfl, rfl, rfl, rfl, rfl⟩

@[simp] theorem State.park_views (s : State) (i : Instr) :
    (s.park i).regByte = s.regByte ∧ (s.park i).planAt = s.planAt ∧ (s.park i).numChannels = s.numChannels ∧
    (s.park i).scannerMode = s.scannerMode ∧ (s.park i).wrote = s.wrote ∧ (s.park i).didRead = s.didRead ∧
    (s.park i).modeEvents = s.modeEvents ∧ (s.park i).frequencyEvents = s.frequencyEvents ∧
    (s.park i).rateEvents = s.rateEvents ∧ (s.park i).rateLog = s.rateLog ∧ (s.park i).oracle = s.oracle ∧
    (s.park i).regValue = s.regValue :=
  State.allViews_congr rfl rfl rfl rfl rfl rfl

@[simp] theorem State.oracleStep_chipAnswers (s : State) (a : Byte) :
    (s.oracleStep a).chipAnswers = answersAfter a s.chipAnswers := rfl

@[simp] theorem State.oracleStep_draws (s : State) (a : Byte) :
    (s.oracleStep a).draws = drawsAfter a s.chipAnswers s.draws := rfl

@[simp] theorem State.oracleStep_frame (s : State) (a : Byte) :
    (s.oracleStep a).radioState = s.radioState ∧ (s.oracleStep a).passActive = s.passActive ∧
    (s.oracleStep a).booted = s.booted ∧ (s.oracleStep a).txPhase = s.txPhase ∧ (s.oracleStep a).sf = s.sf ∧
    (s.oracleStep a).ch = s.ch ∧ (s.oracleStep a).cfgSF = s.cfgSF ∧ (s.oracleStep a).cfgHop = s.cfgHop ∧
    (s.oracleStep a).cfgCad = s.cfgCad ∧ (s.oracleStep a).cfgCh = s.cfgCh ∧ (s.oracleStep a).cfg0 = s.cfg0 ∧
    (s.oracleStep a).pending = s.pending ∧ (s.oracleStep a).eventTime = s.eventTime ∧
    (s.oracleStep a).doneTime = s.doneTime ∧ (s.oracleStep a).clock = s.clock ∧
    (s.oracleStep a).lastRssi = s.lastRssi ∧ (s.oracleStep a).inValid = s.inValid ∧
    (s.oracleStep a).inbound = s.inbound ∧ (s.oracleStep a).outValid = s.outValid ∧
    (s.oracleStep a).outbound = s.outbound ∧ (s.oracleStep a).stats = s.stats ∧ (s.oracleStep a).halted = s.halted ∧
    (s.oracleStep a).modeShadow = s.modeShadow ∧ (s.oracleStep a).faults = s.faults ∧ (s.oracleStep a).log = s.log ∧
    (s.oracleStep a).history = s.history ∧ (s.oracleStep a).par = s.par ∧ (s.oracleStep a).inbox = s.inbox ∧
    (s.oracleStep a).waiting = s.waiting ∧ (s.oracleStep a).result = s.result :=
  ⟨rfl, rfl, rfl, rfl, rfl, rfl, rfl, rfl, rfl, rfl, rfl, rfl, rfl, rfl, rfl, rfl, rfl, rfl, rfl, rfl, rfl, rfl, rfl,
    rfl, rfl, rfl, rfl, rfl, rfl, rfl⟩

@[simp] theorem State.oracleStep_views (s : State) (a : Byte) :
    (s.oracleStep a).regByte = s.regByte ∧ (s.oracleStep a).planAt = s.planAt ∧
    (s.oracleStep a).numChannels = s.numChannels ∧ (s.oracleStep a).scannerMode = s.scannerMode ∧
    (s.oracleStep a).wrote = s.wrote ∧ (s.oracleStep a).didRead = s.didRead ∧
    (s.oracleStep a).modeEvents = s.modeEvents ∧ (s.oracleStep a).frequencyEvents = s.frequencyEvents ∧
    (s.oracleStep a).rateEvents = s.rateEvents ∧ (s.oracleStep a).rateLog = s.rateLog :=
  State.views_congr rfl rfl rfl rfl

@[simp] theorem State.record_history (s : State) (e : SpiEvent) : (s.record e).history = s.history ++ [e] := rfl

@[simp] theorem State.record_frame (s : State) (e : SpiEvent) :
    (s.record e).radioState = s.radioState ∧ (s.record e).passActive = s.passActive ∧ (s.record e).booted = s.booted ∧
    (s.record e).txPhase = s.txPhase ∧ (s.record e).sf = s.sf ∧ (s.record e).ch = s.ch ∧ (s.record e).cfgSF = s.cfgSF ∧
    (s.record e).cfgHop = s.cfgHop ∧ (s.record e).cfgCad = s.cfgCad ∧ (s.record e).cfgCh = s.cfgCh ∧
    (s.record e).cfg0 = s.cfg0 ∧ (s.record e).pending = s.pending ∧ (s.record e).eventTime = s.eventTime ∧
    (s.record e).doneTime = s.doneTime ∧ (s.record e).clock = s.clock ∧ (s.record e).lastRssi = s.lastRssi ∧
    (s.record e).inValid = s.inValid ∧ (s.record e).inbound = s.inbound ∧ (s.record e).outValid = s.outValid ∧
    (s.record e).outbound = s.outbound ∧ (s.record e).stats = s.stats ∧ (s.record e).halted = s.halted ∧
    (s.record e).modeShadow = s.modeShadow ∧ (s.record e).faults = s.faults ∧ (s.record e).log = s.log ∧
    (s.record e).par = s.par ∧ (s.record e).inbox = s.inbox ∧ (s.record e).waiting = s.waiting ∧
    (s.record e).chipAnswers = s.chipAnswers ∧ (s.record e).draws = s.draws ∧ (s.record e).result = s.result :=
  ⟨rfl, rfl, rfl, rfl, rfl, rfl, rfl, rfl, rfl, rfl, rfl, rfl, rfl, rfl, rfl, rfl, rfl, rfl, rfl, rfl, rfl, rfl, rfl,
    rfl, rfl, rfl, rfl, rfl, rfl, rfl, rfl⟩

@[simp] theorem State.record_views (s : State) (e : SpiEvent) :
    (s.record e).regByte = s.regByte ∧ (s.record e).planAt = s.planAt ∧ (s.record e).numChannels = s.numChannels ∧
    (s.record e).scannerMode = s.scannerMode ∧ (s.record e).wrote = s.wrote ∧ (s.record e).didRead = s.didRead ∧
    (s.record e).modeEvents = s.modeEvents ∧ (s.record e).frequencyEvents = s.frequencyEvents ∧
    (s.record e).rateEvents = s.rateEvents ∧ (s.record e).rateLog = s.rateLog ∧ (s.record e).oracle = s.oracle ∧
    (s.record e).regValue = s.regValue :=
  State.allViews_congr rfl rfl rfl rfl rfl rfl

@[simp] theorem State.busRead_chipAnswers (s : State) (a : Byte) :
    (s.busRead a).chipAnswers = answersAfter a s.chipAnswers := rfl

@[simp] theorem State.busRead_draws (s : State) (a : Byte) :
    (s.busRead a).draws = drawsAfter a s.chipAnswers s.draws := rfl

@[simp] theorem State.busRead_history (s : State) (a : Byte) :
    (s.busRead a).history = s.history ++ [⟨.read, a, [s.oracle a]⟩] := rfl

@[simp] theorem State.busRead_frame (s : State) (a : Byte) :
    (s.busRead a).radioState = s.radioState ∧ (s.busRead a).passActive = s.passActive ∧
    (s.busRead a).booted = s.booted ∧ (s.busRead a).txPhase = s.txPhase ∧ (s.busRead a).sf = s.sf ∧
    (s.busRead a).ch = s.ch ∧ (s.busRead a).cfgSF = s.cfgSF ∧ (s.busRead a).cfgHop = s.cfgHop ∧
    (s.busRead a).cfgCad = s.cfgCad ∧ (s.busRead a).cfgCh = s.cfgCh ∧ (s.busRead a).cfg0 = s.cfg0 ∧
    (s.busRead a).pending = s.pending ∧ (s.busRead a).eventTime = s.eventTime ∧ (s.busRead a).doneTime = s.doneTime ∧
    (s.busRead a).clock = s.clock ∧ (s.busRead a).lastRssi = s.lastRssi ∧ (s.busRead a).inValid = s.inValid ∧
    (s.busRead a).inbound = s.inbound ∧ (s.busRead a).outValid = s.outValid ∧ (s.busRead a).outbound = s.outbound ∧
    (s.busRead a).stats = s.stats ∧ (s.busRead a).halted = s.halted ∧ (s.busRead a).modeShadow = s.modeShadow ∧
    (s.busRead a).faults = s.faults ∧ (s.busRead a).log = s.log ∧ (s.busRead a).par = s.par ∧
    (s.busRead a).inbox = s.inbox ∧ (s.busRead a).waiting = s.waiting ∧ (s.busRead a).result = s.result :=
  ⟨rfl, rfl, rfl, rfl, rfl, rfl, rfl, rfl, rfl, rfl, rfl, rfl, rfl, rfl, rfl, rfl, rfl, rfl, rfl, rfl, rfl, rfl, rfl,
    rfl, rfl, rfl, rfl, rfl, rfl⟩

@[simp] theorem State.busRead_views (s : State) (a : Byte) :
    (s.busRead a).regByte = s.regByte ∧ (s.busRead a).planAt = s.planAt ∧ (s.busRead a).numChannels = s.numChannels ∧
    (s.busRead a).scannerMode = s.scannerMode ∧ (s.busRead a).wrote = s.wrote ∧ (s.busRead a).didRead = s.didRead ∧
    (s.busRead a).modeEvents = s.modeEvents ∧ (s.busRead a).frequencyEvents = s.frequencyEvents ∧
    (s.busRead a).rateEvents = s.rateEvents ∧ (s.busRead a).rateLog = s.rateLog :=
  State.views_congr rfl rfl rfl rfl

@[simp] theorem State.busWrite_history (s : State) (a v : Byte) :
    (s.busWrite a v).history = s.history ++ [⟨.write, a, [v]⟩] := rfl

@[simp] theorem State.busWrite_frame (s : State) (a v : Byte) :
    (s.busWrite a v).radioState = s.radioState ∧ (s.busWrite a v).passActive = s.passActive ∧
    (s.busWrite a v).booted = s.booted ∧ (s.busWrite a v).txPhase = s.txPhase ∧ (s.busWrite a v).sf = s.sf ∧
    (s.busWrite a v).ch = s.ch ∧ (s.busWrite a v).cfgSF = s.cfgSF ∧ (s.busWrite a v).cfgHop = s.cfgHop ∧
    (s.busWrite a v).cfgCad = s.cfgCad ∧ (s.busWrite a v).cfgCh = s.cfgCh ∧ (s.busWrite a v).cfg0 = s.cfg0 ∧
    (s.busWrite a v).pending = s.pending ∧ (s.busWrite a v).eventTime = s.eventTime ∧
    (s.busWrite a v).doneTime = s.doneTime ∧ (s.busWrite a v).clock = s.clock ∧
    (s.busWrite a v).lastRssi = s.lastRssi ∧ (s.busWrite a v).inValid = s.inValid ∧
    (s.busWrite a v).inbound = s.inbound ∧ (s.busWrite a v).outValid = s.outValid ∧
    (s.busWrite a v).outbound = s.outbound ∧ (s.busWrite a v).stats = s.stats ∧ (s.busWrite a v).halted = s.halted ∧
    (s.busWrite a v).modeShadow = s.modeShadow ∧ (s.busWrite a v).faults = s.faults ∧ (s.busWrite a v).log = s.log ∧
    (s.busWrite a v).par = s.par ∧ (s.busWrite a v).inbox = s.inbox ∧ (s.busWrite a v).waiting = s.waiting ∧
    (s.busWrite a v).chipAnswers = s.chipAnswers ∧ (s.busWrite a v).draws = s.draws ∧
    (s.busWrite a v).result = s.result :=
  ⟨rfl, rfl, rfl, rfl, rfl, rfl, rfl, rfl, rfl, rfl, rfl, rfl, rfl, rfl, rfl, rfl, rfl, rfl, rfl, rfl, rfl, rfl, rfl,
    rfl, rfl, rfl, rfl, rfl, rfl, rfl, rfl⟩

@[simp] theorem State.busWrite_views (s : State) (a v : Byte) :
    (s.busWrite a v).regByte = s.regByte ∧ (s.busWrite a v).planAt = s.planAt ∧
    (s.busWrite a v).numChannels = s.numChannels ∧ (s.busWrite a v).scannerMode = s.scannerMode ∧
    (s.busWrite a v).wrote = s.wrote ∧ (s.busWrite a v).didRead = s.didRead ∧
    (s.busWrite a v).modeEvents = s.modeEvents ∧ (s.busWrite a v).frequencyEvents = s.frequencyEvents ∧
    (s.busWrite a v).rateEvents = s.rateEvents ∧ (s.busWrite a v).rateLog = s.rateLog ∧
    (s.busWrite a v).oracle = s.oracle ∧ (s.busWrite a v).regValue = s.regValue :=
  State.allViews_congr rfl rfl rfl rfl rfl rfl

@[simp] theorem State.busBurst_history (s : State) (a : Byte) (data : List Byte) :
    (s.busBurst a data).history = s.history ++ [⟨.burst, a, data⟩] := rfl

@[simp] theorem State.busBurst_frame (s : State) (a : Byte) (data : List Byte) :
    (s.busBurst a data).radioState = s.radioState ∧ (s.busBurst a data).passActive = s.passActive ∧
    (s.busBurst a data).booted = s.booted ∧ (s.busBurst a data).txPhase = s.txPhase ∧ (s.busBurst a data).sf = s.sf ∧
    (s.busBurst a data).ch = s.ch ∧ (s.busBurst a data).cfgSF = s.cfgSF ∧ (s.busBurst a data).cfgHop = s.cfgHop ∧
    (s.busBurst a data).cfgCad = s.cfgCad ∧ (s.busBurst a data).cfgCh = s.cfgCh ∧ (s.busBurst a data).cfg0 = s.cfg0 ∧
    (s.busBurst a data).pending = s.pending ∧ (s.busBurst a data).eventTime = s.eventTime ∧
    (s.busBurst a data).doneTime = s.doneTime ∧ (s.busBurst a data).clock = s.clock ∧
    (s.busBurst a data).lastRssi = s.lastRssi ∧ (s.busBurst a data).inValid = s.inValid ∧
    (s.busBurst a data).inbound = s.inbound ∧ (s.busBurst a data).outValid = s.outValid ∧
    (s.busBurst a data).outbound = s.outbound ∧ (s.busBurst a data).stats = s.stats ∧
    (s.busBurst a data).halted = s.halted ∧ (s.busBurst a data).modeShadow = s.modeShadow ∧
    (s.busBurst a data).faults = s.faults ∧ (s.busBurst a data).log = s.log ∧ (s.busBurst a data).par = s.par ∧
    (s.busBurst a data).inbox = s.inbox ∧ (s.busBurst a data).waiting = s.waiting ∧
    (s.busBurst a data).chipAnswers = s.chipAnswers ∧ (s.busBurst a data).draws = s.draws ∧
    (s.busBurst a data).result = s.result :=
  ⟨rfl, rfl, rfl, rfl, rfl, rfl, rfl, rfl, rfl, rfl, rfl, rfl, rfl, rfl, rfl, rfl, rfl, rfl, rfl, rfl, rfl, rfl, rfl,
    rfl, rfl, rfl, rfl, rfl, rfl, rfl, rfl⟩

@[simp] theorem State.busBurst_views (s : State) (a : Byte) (data : List Byte) :
    (s.busBurst a data).regByte = s.regByte ∧ (s.busBurst a data).planAt = s.planAt ∧
    (s.busBurst a data).numChannels = s.numChannels ∧ (s.busBurst a data).scannerMode = s.scannerMode ∧
    (s.busBurst a data).wrote = s.wrote ∧ (s.busBurst a data).didRead = s.didRead ∧
    (s.busBurst a data).modeEvents = s.modeEvents ∧ (s.busBurst a data).frequencyEvents = s.frequencyEvents ∧
    (s.busBurst a data).rateEvents = s.rateEvents ∧ (s.busBurst a data).rateLog = s.rateLog ∧
    (s.busBurst a data).oracle = s.oracle ∧ (s.busBurst a data).regValue = s.regValue :=
  State.allViews_congr rfl rfl rfl rfl rfl rfl

@[simp] theorem State.readReg_chipAnswers (s : State) (r : Reg) :
    (s.readReg r).chipAnswers = answersAfter (s.regByte r) s.chipAnswers := rfl

@[simp] theorem State.readReg_draws (s : State) (r : Reg) :
    (s.readReg r).draws = drawsAfter (s.regByte r) s.chipAnswers s.draws := rfl

@[simp] theorem State.readReg_history (s : State) (r : Reg) :
    (s.readReg r).history = s.history ++ [s.didRead r (s.regValue r)] := rfl

@[simp] theorem State.readReg_frame (s : State) (r : Reg) :
    (s.readReg r).radioState = s.radioState ∧ (s.readReg r).passActive = s.passActive ∧
    (s.readReg r).booted = s.booted ∧ (s.readReg r).txPhase = s.txPhase ∧ (s.readReg r).sf = s.sf ∧
    (s.readReg r).ch = s.ch ∧ (s.readReg r).cfgSF = s.cfgSF ∧ (s.readReg r).cfgHop = s.cfgHop ∧
    (s.readReg r).cfgCad = s.cfgCad ∧ (s.readReg r).cfgCh = s.cfgCh ∧ (s.readReg r).cfg0 = s.cfg0 ∧
    (s.readReg r).pending = s.pending ∧ (s.readReg r).eventTime = s.eventTime ∧ (s.readReg r).doneTime = s.doneTime ∧
    (s.readReg r).clock = s.clock ∧ (s.readReg r).lastRssi = s.lastRssi ∧ (s.readReg r).inValid = s.inValid ∧
    (s.readReg r).inbound = s.inbound ∧ (s.readReg r).outValid = s.outValid ∧ (s.readReg r).outbound = s.outbound ∧
    (s.readReg r).stats = s.stats ∧ (s.readReg r).halted = s.halted ∧ (s.readReg r).modeShadow = s.modeShadow ∧
    (s.readReg r).faults = s.faults ∧ (s.readReg r).log = s.log ∧ (s.readReg r).par = s.par ∧
    (s.readReg r).inbox = s.inbox ∧ (s.readReg r).waiting = s.waiting ∧ (s.readReg r).result = s.result :=
  ⟨rfl, rfl, rfl, rfl, rfl, rfl, rfl, rfl, rfl, rfl, rfl, rfl, rfl, rfl, rfl, rfl, rfl, rfl, rfl, rfl, rfl, rfl, rfl,
    rfl, rfl, rfl, rfl, rfl, rfl⟩

@[simp] theorem State.readReg_views (s : State) (r : Reg) :
    (s.readReg r).regByte = s.regByte ∧ (s.readReg r).planAt = s.planAt ∧ (s.readReg r).numChannels = s.numChannels ∧
    (s.readReg r).scannerMode = s.scannerMode ∧ (s.readReg r).wrote = s.wrote ∧ (s.readReg r).didRead = s.didRead ∧
    (s.readReg r).modeEvents = s.modeEvents ∧ (s.readReg r).frequencyEvents = s.frequencyEvents ∧
    (s.readReg r).rateEvents = s.rateEvents ∧ (s.readReg r).rateLog = s.rateLog :=
  State.views_congr rfl rfl rfl rfl

@[simp] theorem State.writeReg_history (s : State) (r : Reg) (v : Byte) :
    (s.writeReg r v).history = s.history ++ [s.wrote r v] := rfl

@[simp] theorem State.writeReg_frame (s : State) (r : Reg) (v : Byte) :
    (s.writeReg r v).radioState = s.radioState ∧ (s.writeReg r v).passActive = s.passActive ∧
    (s.writeReg r v).booted = s.booted ∧ (s.writeReg r v).txPhase = s.txPhase ∧ (s.writeReg r v).sf = s.sf ∧
    (s.writeReg r v).ch = s.ch ∧ (s.writeReg r v).cfgSF = s.cfgSF ∧ (s.writeReg r v).cfgHop = s.cfgHop ∧
    (s.writeReg r v).cfgCad = s.cfgCad ∧ (s.writeReg r v).cfgCh = s.cfgCh ∧ (s.writeReg r v).cfg0 = s.cfg0 ∧
    (s.writeReg r v).pending = s.pending ∧ (s.writeReg r v).eventTime = s.eventTime ∧
    (s.writeReg r v).doneTime = s.doneTime ∧ (s.writeReg r v).clock = s.clock ∧
    (s.writeReg r v).lastRssi = s.lastRssi ∧ (s.writeReg r v).inValid = s.inValid ∧
    (s.writeReg r v).inbound = s.inbound ∧ (s.writeReg r v).outValid = s.outValid ∧
    (s.writeReg r v).outbound = s.outbound ∧ (s.writeReg r v).stats = s.stats ∧ (s.writeReg r v).halted = s.halted ∧
    (s.writeReg r v).modeShadow = s.modeShadow ∧ (s.writeReg r v).faults = s.faults ∧ (s.writeReg r v).log = s.log ∧
    (s.writeReg r v).par = s.par ∧ (s.writeReg r v).inbox = s.inbox ∧ (s.writeReg r v).waiting = s.waiting ∧
    (s.writeReg r v).chipAnswers = s.chipAnswers ∧ (s.writeReg r v).draws = s.draws ∧
    (s.writeReg r v).result = s.result :=
  ⟨rfl, rfl, rfl, rfl, rfl, rfl, rfl, rfl, rfl, rfl, rfl, rfl, rfl, rfl, rfl, rfl, rfl, rfl, rfl, rfl, rfl, rfl, rfl,
    rfl, rfl, rfl, rfl, rfl, rfl, rfl, rfl⟩

@[simp] theorem State.writeReg_views (s : State) (r : Reg) (v : Byte) :
    (s.writeReg r v).regByte = s.regByte ∧ (s.writeReg r v).planAt = s.planAt ∧
    (s.writeReg r v).numChannels = s.numChannels ∧ (s.writeReg r v).scannerMode = s.scannerMode ∧
    (s.writeReg r v).wrote = s.wrote ∧ (s.writeReg r v).didRead = s.didRead ∧
    (s.writeReg r v).modeEvents = s.modeEvents ∧ (s.writeReg r v).frequencyEvents = s.frequencyEvents ∧
    (s.writeReg r v).rateEvents = s.rateEvents ∧ (s.writeReg r v).rateLog = s.rateLog ∧
    (s.writeReg r v).oracle = s.oracle ∧ (s.writeReg r v).regValue = s.regValue :=
  State.allViews_congr rfl rfl rfl rfl rfl rfl

@[simp] theorem State.captureRssi_chipAnswers (s : State) :
    s.captureRssi.chipAnswers = answersAfter (s.regByte .rssiValue) s.chipAnswers := rfl

@[simp] theorem State.captureRssi_draws (s : State) :
    s.captureRssi.draws = drawsAfter (s.regByte .rssiValue) s.chipAnswers s.draws := rfl

@[simp] theorem State.captureRssi_lastRssi (s : State) : s.captureRssi.lastRssi = s.regValue .rssiValue := rfl

@[simp] theorem State.captureRssi_history (s : State) :
    s.captureRssi.history = s.history ++ [s.didRead .rssiValue (s.regValue .rssiValue)] := rfl

@[simp] theorem State.captureRssi_frame (s : State) :
    s.captureRssi.radioState = s.radioState ∧ s.captureRssi.passActive = s.passActive ∧
    s.captureRssi.booted = s.booted ∧ s.captureRssi.txPhase = s.txPhase ∧ s.captureRssi.sf = s.sf ∧
    s.captureRssi.ch = s.ch ∧ s.captureRssi.cfgSF = s.cfgSF ∧ s.captureRssi.cfgHop = s.cfgHop ∧
    s.captureRssi.cfgCad = s.cfgCad ∧ s.captureRssi.cfgCh = s.cfgCh ∧ s.captureRssi.cfg0 = s.cfg0 ∧
    s.captureRssi.pending = s.pending ∧ s.captureRssi.eventTime = s.eventTime ∧ s.captureRssi.doneTime = s.doneTime ∧
    s.captureRssi.clock = s.clock ∧ s.captureRssi.inValid = s.inValid ∧ s.captureRssi.inbound = s.inbound ∧
    s.captureRssi.outValid = s.outValid ∧ s.captureRssi.outbound = s.outbound ∧ s.captureRssi.stats = s.stats ∧
    s.captureRssi.halted = s.halted ∧ s.captureRssi.modeShadow = s.modeShadow ∧ s.captureRssi.faults = s.faults ∧
    s.captureRssi.log = s.log ∧ s.captureRssi.par = s.par ∧ s.captureRssi.inbox = s.inbox ∧
    s.captureRssi.waiting = s.waiting ∧ s.captureRssi.result = s.result :=
  ⟨rfl, rfl, rfl, rfl, rfl, rfl, rfl, rfl, rfl, rfl, rfl, rfl, rfl, rfl, rfl, rfl, rfl, rfl, rfl, rfl, rfl, rfl, rfl,
    rfl, rfl, rfl, rfl, rfl⟩

@[simp] theorem State.captureRssi_views (s : State) :
    s.captureRssi.regByte = s.regByte ∧ s.captureRssi.planAt = s.planAt ∧ s.captureRssi.numChannels = s.numChannels ∧
    s.captureRssi.scannerMode = s.scannerMode ∧ s.captureRssi.wrote = s.wrote ∧ s.captureRssi.didRead = s.didRead ∧
    s.captureRssi.modeEvents = s.modeEvents ∧ s.captureRssi.frequencyEvents = s.frequencyEvents ∧
    s.captureRssi.rateEvents = s.rateEvents ∧ s.captureRssi.rateLog = s.rateLog :=
  State.views_congr rfl rfl rfl rfl

/-! ## ModemConfig -/

@[simp] theorem State.writeFrequencyWord_history (s : State) (frf : Nat) :
    (s.writeFrequencyWord frf).history = s.history ++ [s.wrote .frfMsb (frequencyMsb frf), s.wrote .frfMid (frequencyMid frf),
      s.wrote .frfLsb (frequencyLsb frf)] := by
  simp [State.writeFrequencyWord, State.wrote]

@[simp] theorem State.writeFrequencyWord_frame (s : State) (frf : Nat) :
    (s.writeFrequencyWord frf).radioState = s.radioState ∧ (s.writeFrequencyWord frf).passActive = s.passActive ∧
    (s.writeFrequencyWord frf).booted = s.booted ∧ (s.writeFrequencyWord frf).txPhase = s.txPhase ∧
    (s.writeFrequencyWord frf).sf = s.sf ∧ (s.writeFrequencyWord frf).ch = s.ch ∧
    (s.writeFrequencyWord frf).cfgSF = s.cfgSF ∧ (s.writeFrequencyWord frf).cfgHop = s.cfgHop ∧
    (s.writeFrequencyWord frf).cfgCad = s.cfgCad ∧ (s.writeFrequencyWord frf).cfgCh = s.cfgCh ∧
    (s.writeFrequencyWord frf).cfg0 = s.cfg0 ∧ (s.writeFrequencyWord frf).pending = s.pending ∧
    (s.writeFrequencyWord frf).eventTime = s.eventTime ∧ (s.writeFrequencyWord frf).doneTime = s.doneTime ∧
    (s.writeFrequencyWord frf).clock = s.clock ∧ (s.writeFrequencyWord frf).lastRssi = s.lastRssi ∧
    (s.writeFrequencyWord frf).inValid = s.inValid ∧ (s.writeFrequencyWord frf).inbound = s.inbound ∧
    (s.writeFrequencyWord frf).outValid = s.outValid ∧ (s.writeFrequencyWord frf).outbound = s.outbound ∧
    (s.writeFrequencyWord frf).stats = s.stats ∧ (s.writeFrequencyWord frf).halted = s.halted ∧
    (s.writeFrequencyWord frf).modeShadow = s.modeShadow ∧ (s.writeFrequencyWord frf).faults = s.faults ∧
    (s.writeFrequencyWord frf).log = s.log ∧ (s.writeFrequencyWord frf).par = s.par ∧
    (s.writeFrequencyWord frf).inbox = s.inbox ∧ (s.writeFrequencyWord frf).waiting = s.waiting ∧
    (s.writeFrequencyWord frf).chipAnswers = s.chipAnswers ∧ (s.writeFrequencyWord frf).draws = s.draws ∧
    (s.writeFrequencyWord frf).result = s.result :=
  by simp [State.writeFrequencyWord]

@[simp] theorem State.writeFrequencyWord_views (s : State) (frf : Nat) :
    (s.writeFrequencyWord frf).regByte = s.regByte ∧ (s.writeFrequencyWord frf).planAt = s.planAt ∧
    (s.writeFrequencyWord frf).numChannels = s.numChannels ∧ (s.writeFrequencyWord frf).scannerMode = s.scannerMode ∧
    (s.writeFrequencyWord frf).wrote = s.wrote ∧ (s.writeFrequencyWord frf).didRead = s.didRead ∧
    (s.writeFrequencyWord frf).modeEvents = s.modeEvents ∧
    (s.writeFrequencyWord frf).frequencyEvents = s.frequencyEvents ∧
    (s.writeFrequencyWord frf).rateEvents = s.rateEvents ∧ (s.writeFrequencyWord frf).rateLog = s.rateLog ∧
    (s.writeFrequencyWord frf).oracle = s.oracle ∧ (s.writeFrequencyWord frf).regValue = s.regValue :=
  State.allViews_congr (by simp) (by simp) (by simp) (by simp) (by simp) (by simp)

@[simp] theorem State.writeRate_history (s : State) (sf : Byte) (crc : Bool) :
    (s.writeRate sf crc).history = s.history ++ [s.wrote .modemConfig1 (rateEntry s.par sf.toNat crc).mc1,
      s.wrote .modemConfig2 (rateMc2 s.par sf crc), s.wrote .modemConfig3 (rateEntry s.par sf.toNat crc).mc3,
      s.wrote .symbTimeoutLsb (symbTimeout s.par sf.toNat)] := by
  simp [State.writeRate, State.wrote]

@[simp] theorem State.writeRate_frame (s : State) (sf : Byte) (crc : Bool) :
    (s.writeRate sf crc).radioState = s.radioState ∧ (s.writeRate sf crc).passActive = s.passActive ∧
    (s.writeRate sf crc).booted = s.booted ∧ (s.writeRate sf crc).txPhase = s.txPhase ∧
    (s.writeRate sf crc).sf = s.sf ∧ (s.writeRate sf crc).ch = s.ch ∧ (s.writeRate sf crc).cfgSF = s.cfgSF ∧
    (s.writeRate sf crc).cfgHop = s.cfgHop ∧ (s.writeRate sf crc).cfgCad = s.cfgCad ∧
    (s.writeRate sf crc).cfgCh = s.cfgCh ∧ (s.writeRate sf crc).cfg0 = s.cfg0 ∧
    (s.writeRate sf crc).pending = s.pending ∧ (s.writeRate sf crc).eventTime = s.eventTime ∧
    (s.writeRate sf crc).doneTime = s.doneTime ∧ (s.writeRate sf crc).clock = s.clock ∧
    (s.writeRate sf crc).lastRssi = s.lastRssi ∧ (s.writeRate sf crc).inValid = s.inValid ∧
    (s.writeRate sf crc).inbound = s.inbound ∧ (s.writeRate sf crc).outValid = s.outValid ∧
    (s.writeRate sf crc).outbound = s.outbound ∧ (s.writeRate sf crc).stats = s.stats ∧
    (s.writeRate sf crc).halted = s.halted ∧ (s.writeRate sf crc).modeShadow = s.modeShadow ∧
    (s.writeRate sf crc).faults = s.faults ∧ (s.writeRate sf crc).log = s.log ∧ (s.writeRate sf crc).par = s.par ∧
    (s.writeRate sf crc).inbox = s.inbox ∧ (s.writeRate sf crc).waiting = s.waiting ∧
    (s.writeRate sf crc).chipAnswers = s.chipAnswers ∧ (s.writeRate sf crc).draws = s.draws ∧
    (s.writeRate sf crc).result = s.result :=
  by simp [State.writeRate]

@[simp] theorem State.writeRate_views (s : State) (sf : Byte) (crc : Bool) :
    (s.writeRate sf crc).regByte = s.regByte ∧ (s.writeRate sf crc).planAt = s.planAt ∧
    (s.writeRate sf crc).numChannels = s.numChannels ∧ (s.writeRate sf crc).scannerMode = s.scannerMode ∧
    (s.writeRate sf crc).wrote = s.wrote ∧ (s.writeRate sf crc).didRead = s.didRead ∧
    (s.writeRate sf crc).modeEvents = s.modeEvents ∧ (s.writeRate sf crc).frequencyEvents = s.frequencyEvents ∧
    (s.writeRate sf crc).rateEvents = s.rateEvents ∧ (s.writeRate sf crc).rateLog = s.rateLog ∧
    (s.writeRate sf crc).oracle = s.oracle ∧ (s.writeRate sf crc).regValue = s.regValue :=
  State.allViews_congr (by simp) (by simp) (by simp) (by simp) (by simp) (by simp)

@[simp] theorem State.setOpMode_chipAnswers (s : State) (m : Mode) :
    (s.setOpMode m).chipAnswers = answersAfter (s.regByte .opMode) s.chipAnswers := rfl

@[simp] theorem State.setOpMode_draws (s : State) (m : Mode) :
    (s.setOpMode m).draws = drawsAfter (s.regByte .opMode) s.chipAnswers s.draws := rfl

@[simp] theorem State.setOpMode_history (s : State) (m : Mode) :
    (s.setOpMode m).history = s.history ++ s.modeEvents (s.regValue .opMode) m := by
  simp [State.setOpMode, State.modeEvents, State.didRead, State.wrote, opModeValue]

@[simp] theorem State.setOpMode_modeShadow (s : State) (m : Mode) : (s.setOpMode m).modeShadow = .known m := rfl

@[simp] theorem State.setOpMode_frame (s : State) (m : Mode) :
    (s.setOpMode m).radioState = s.radioState ∧ (s.setOpMode m).passActive = s.passActive ∧
    (s.setOpMode m).booted = s.booted ∧ (s.setOpMode m).txPhase = s.txPhase ∧ (s.setOpMode m).sf = s.sf ∧
    (s.setOpMode m).ch = s.ch ∧ (s.setOpMode m).cfgSF = s.cfgSF ∧ (s.setOpMode m).cfgHop = s.cfgHop ∧
    (s.setOpMode m).cfgCad = s.cfgCad ∧ (s.setOpMode m).cfgCh = s.cfgCh ∧ (s.setOpMode m).cfg0 = s.cfg0 ∧
    (s.setOpMode m).pending = s.pending ∧ (s.setOpMode m).eventTime = s.eventTime ∧
    (s.setOpMode m).doneTime = s.doneTime ∧ (s.setOpMode m).clock = s.clock ∧ (s.setOpMode m).lastRssi = s.lastRssi ∧
    (s.setOpMode m).inValid = s.inValid ∧ (s.setOpMode m).inbound = s.inbound ∧ (s.setOpMode m).outValid = s.outValid ∧
    (s.setOpMode m).outbound = s.outbound ∧ (s.setOpMode m).stats = s.stats ∧ (s.setOpMode m).halted = s.halted ∧
    (s.setOpMode m).faults = s.faults ∧ (s.setOpMode m).log = s.log ∧ (s.setOpMode m).par = s.par ∧
    (s.setOpMode m).inbox = s.inbox ∧ (s.setOpMode m).waiting = s.waiting ∧ (s.setOpMode m).result = s.result :=
  by simp [State.setOpMode]

@[simp] theorem State.setOpMode_views (s : State) (m : Mode) :
    (s.setOpMode m).regByte = s.regByte ∧ (s.setOpMode m).planAt = s.planAt ∧
    (s.setOpMode m).numChannels = s.numChannels ∧ (s.setOpMode m).scannerMode = s.scannerMode ∧
    (s.setOpMode m).wrote = s.wrote ∧ (s.setOpMode m).didRead = s.didRead ∧ (s.setOpMode m).modeEvents = s.modeEvents ∧
    (s.setOpMode m).frequencyEvents = s.frequencyEvents ∧ (s.setOpMode m).rateEvents = s.rateEvents ∧
    (s.setOpMode m).rateLog = s.rateLog :=
  State.views_congr (by simp) (by simp) (by simp) (by simp)

@[simp] theorem State.setIq_history (s : State) (invert : Bool) :
    (s.setIq invert).history = s.history ++ [s.wrote .invertIq (iqValue s.par invert)] := rfl

@[simp] theorem State.setIq_frame (s : State) (invert : Bool) :
    (s.setIq invert).radioState = s.radioState ∧ (s.setIq invert).passActive = s.passActive ∧
    (s.setIq invert).booted = s.booted ∧ (s.setIq invert).txPhase = s.txPhase ∧ (s.setIq invert).sf = s.sf ∧
    (s.setIq invert).ch = s.ch ∧ (s.setIq invert).cfgSF = s.cfgSF ∧ (s.setIq invert).cfgHop = s.cfgHop ∧
    (s.setIq invert).cfgCad = s.cfgCad ∧ (s.setIq invert).cfgCh = s.cfgCh ∧ (s.setIq invert).cfg0 = s.cfg0 ∧
    (s.setIq invert).pending = s.pending ∧ (s.setIq invert).eventTime = s.eventTime ∧
    (s.setIq invert).doneTime = s.doneTime ∧ (s.setIq invert).clock = s.clock ∧
    (s.setIq invert).lastRssi = s.lastRssi ∧ (s.setIq invert).inValid = s.inValid ∧
    (s.setIq invert).inbound = s.inbound ∧ (s.setIq invert).outValid = s.outValid ∧
    (s.setIq invert).outbound = s.outbound ∧ (s.setIq invert).stats = s.stats ∧ (s.setIq invert).halted = s.halted ∧
    (s.setIq invert).modeShadow = s.modeShadow ∧ (s.setIq invert).faults = s.faults ∧ (s.setIq invert).log = s.log ∧
    (s.setIq invert).par = s.par ∧ (s.setIq invert).inbox = s.inbox ∧ (s.setIq invert).waiting = s.waiting ∧
    (s.setIq invert).chipAnswers = s.chipAnswers ∧ (s.setIq invert).draws = s.draws ∧
    (s.setIq invert).result = s.result :=
  ⟨rfl, rfl, rfl, rfl, rfl, rfl, rfl, rfl, rfl, rfl, rfl, rfl, rfl, rfl, rfl, rfl, rfl, rfl, rfl, rfl, rfl, rfl, rfl,
    rfl, rfl, rfl, rfl, rfl, rfl, rfl, rfl⟩

@[simp] theorem State.setIq_views (s : State) (invert : Bool) :
    (s.setIq invert).regByte = s.regByte ∧ (s.setIq invert).planAt = s.planAt ∧
    (s.setIq invert).numChannels = s.numChannels ∧ (s.setIq invert).scannerMode = s.scannerMode ∧
    (s.setIq invert).wrote = s.wrote ∧ (s.setIq invert).didRead = s.didRead ∧
    (s.setIq invert).modeEvents = s.modeEvents ∧ (s.setIq invert).frequencyEvents = s.frequencyEvents ∧
    (s.setIq invert).rateEvents = s.rateEvents ∧ (s.setIq invert).rateLog = s.rateLog ∧
    (s.setIq invert).oracle = s.oracle ∧ (s.setIq invert).regValue = s.regValue :=
  State.allViews_congr rfl rfl rfl rfl rfl rfl

@[simp] theorem State.clearIrq_history (s : State) (bits : Byte) :
    (s.clearIrq bits).history = s.history ++ [s.wrote .irqFlags bits] := rfl

@[simp] theorem State.clearIrq_frame (s : State) (bits : Byte) :
    (s.clearIrq bits).radioState = s.radioState ∧ (s.clearIrq bits).passActive = s.passActive ∧
    (s.clearIrq bits).booted = s.booted ∧ (s.clearIrq bits).txPhase = s.txPhase ∧ (s.clearIrq bits).sf = s.sf ∧
    (s.clearIrq bits).ch = s.ch ∧ (s.clearIrq bits).cfgSF = s.cfgSF ∧ (s.clearIrq bits).cfgHop = s.cfgHop ∧
    (s.clearIrq bits).cfgCad = s.cfgCad ∧ (s.clearIrq bits).cfgCh = s.cfgCh ∧ (s.clearIrq bits).cfg0 = s.cfg0 ∧
    (s.clearIrq bits).pending = s.pending ∧ (s.clearIrq bits).eventTime = s.eventTime ∧
    (s.clearIrq bits).doneTime = s.doneTime ∧ (s.clearIrq bits).clock = s.clock ∧
    (s.clearIrq bits).lastRssi = s.lastRssi ∧ (s.clearIrq bits).inValid = s.inValid ∧
    (s.clearIrq bits).inbound = s.inbound ∧ (s.clearIrq bits).outValid = s.outValid ∧
    (s.clearIrq bits).outbound = s.outbound ∧ (s.clearIrq bits).stats = s.stats ∧ (s.clearIrq bits).halted = s.halted ∧
    (s.clearIrq bits).modeShadow = s.modeShadow ∧ (s.clearIrq bits).faults = s.faults ∧ (s.clearIrq bits).log = s.log ∧
    (s.clearIrq bits).par = s.par ∧ (s.clearIrq bits).inbox = s.inbox ∧ (s.clearIrq bits).waiting = s.waiting ∧
    (s.clearIrq bits).chipAnswers = s.chipAnswers ∧ (s.clearIrq bits).draws = s.draws ∧
    (s.clearIrq bits).result = s.result :=
  ⟨rfl, rfl, rfl, rfl, rfl, rfl, rfl, rfl, rfl, rfl, rfl, rfl, rfl, rfl, rfl, rfl, rfl, rfl, rfl, rfl, rfl, rfl, rfl,
    rfl, rfl, rfl, rfl, rfl, rfl, rfl, rfl⟩

@[simp] theorem State.clearIrq_views (s : State) (bits : Byte) :
    (s.clearIrq bits).regByte = s.regByte ∧ (s.clearIrq bits).planAt = s.planAt ∧
    (s.clearIrq bits).numChannels = s.numChannels ∧ (s.clearIrq bits).scannerMode = s.scannerMode ∧
    (s.clearIrq bits).wrote = s.wrote ∧ (s.clearIrq bits).didRead = s.didRead ∧
    (s.clearIrq bits).modeEvents = s.modeEvents ∧ (s.clearIrq bits).frequencyEvents = s.frequencyEvents ∧
    (s.clearIrq bits).rateEvents = s.rateEvents ∧ (s.clearIrq bits).rateLog = s.rateLog ∧
    (s.clearIrq bits).oracle = s.oracle ∧ (s.clearIrq bits).regValue = s.regValue :=
  State.allViews_congr rfl rfl rfl rfl rfl rfl

@[simp] theorem State.setIrqMask_history (s : State) (mask : Byte) :
    (s.setIrqMask mask).history = s.history ++ [s.wrote .irqFlagsMask mask] := rfl

@[simp] theorem State.setIrqMask_frame (s : State) (mask : Byte) :
    (s.setIrqMask mask).radioState = s.radioState ∧ (s.setIrqMask mask).passActive = s.passActive ∧
    (s.setIrqMask mask).booted = s.booted ∧ (s.setIrqMask mask).txPhase = s.txPhase ∧ (s.setIrqMask mask).sf = s.sf ∧
    (s.setIrqMask mask).ch = s.ch ∧ (s.setIrqMask mask).cfgSF = s.cfgSF ∧ (s.setIrqMask mask).cfgHop = s.cfgHop ∧
    (s.setIrqMask mask).cfgCad = s.cfgCad ∧ (s.setIrqMask mask).cfgCh = s.cfgCh ∧ (s.setIrqMask mask).cfg0 = s.cfg0 ∧
    (s.setIrqMask mask).pending = s.pending ∧ (s.setIrqMask mask).eventTime = s.eventTime ∧
    (s.setIrqMask mask).doneTime = s.doneTime ∧ (s.setIrqMask mask).clock = s.clock ∧
    (s.setIrqMask mask).lastRssi = s.lastRssi ∧ (s.setIrqMask mask).inValid = s.inValid ∧
    (s.setIrqMask mask).inbound = s.inbound ∧ (s.setIrqMask mask).outValid = s.outValid ∧
    (s.setIrqMask mask).outbound = s.outbound ∧ (s.setIrqMask mask).stats = s.stats ∧
    (s.setIrqMask mask).halted = s.halted ∧ (s.setIrqMask mask).modeShadow = s.modeShadow ∧
    (s.setIrqMask mask).faults = s.faults ∧ (s.setIrqMask mask).log = s.log ∧ (s.setIrqMask mask).par = s.par ∧
    (s.setIrqMask mask).inbox = s.inbox ∧ (s.setIrqMask mask).waiting = s.waiting ∧
    (s.setIrqMask mask).chipAnswers = s.chipAnswers ∧ (s.setIrqMask mask).draws = s.draws ∧
    (s.setIrqMask mask).result = s.result :=
  ⟨rfl, rfl, rfl, rfl, rfl, rfl, rfl, rfl, rfl, rfl, rfl, rfl, rfl, rfl, rfl, rfl, rfl, rfl, rfl, rfl, rfl, rfl, rfl,
    rfl, rfl, rfl, rfl, rfl, rfl, rfl, rfl⟩

@[simp] theorem State.setIrqMask_views (s : State) (mask : Byte) :
    (s.setIrqMask mask).regByte = s.regByte ∧ (s.setIrqMask mask).planAt = s.planAt ∧
    (s.setIrqMask mask).numChannels = s.numChannels ∧ (s.setIrqMask mask).scannerMode = s.scannerMode ∧
    (s.setIrqMask mask).wrote = s.wrote ∧ (s.setIrqMask mask).didRead = s.didRead ∧
    (s.setIrqMask mask).modeEvents = s.modeEvents ∧ (s.setIrqMask mask).frequencyEvents = s.frequencyEvents ∧
    (s.setIrqMask mask).rateEvents = s.rateEvents ∧ (s.setIrqMask mask).rateLog = s.rateLog ∧
    (s.setIrqMask mask).oracle = s.oracle ∧ (s.setIrqMask mask).regValue = s.regValue :=
  State.allViews_congr rfl rfl rfl rfl rfl rfl

@[simp] theorem State.setDioMap_history (s : State) (k : DioKind) :
    (s.setDioMap k).history = s.history ++ [s.wrote .dioMapping1 (dioValue s.par.dioMap k)] := rfl

@[simp] theorem State.setDioMap_frame (s : State) (k : DioKind) :
    (s.setDioMap k).radioState = s.radioState ∧ (s.setDioMap k).passActive = s.passActive ∧
    (s.setDioMap k).booted = s.booted ∧ (s.setDioMap k).txPhase = s.txPhase ∧ (s.setDioMap k).sf = s.sf ∧
    (s.setDioMap k).ch = s.ch ∧ (s.setDioMap k).cfgSF = s.cfgSF ∧ (s.setDioMap k).cfgHop = s.cfgHop ∧
    (s.setDioMap k).cfgCad = s.cfgCad ∧ (s.setDioMap k).cfgCh = s.cfgCh ∧ (s.setDioMap k).cfg0 = s.cfg0 ∧
    (s.setDioMap k).pending = s.pending ∧ (s.setDioMap k).eventTime = s.eventTime ∧
    (s.setDioMap k).doneTime = s.doneTime ∧ (s.setDioMap k).clock = s.clock ∧ (s.setDioMap k).lastRssi = s.lastRssi ∧
    (s.setDioMap k).inValid = s.inValid ∧ (s.setDioMap k).inbound = s.inbound ∧ (s.setDioMap k).outValid = s.outValid ∧
    (s.setDioMap k).outbound = s.outbound ∧ (s.setDioMap k).stats = s.stats ∧ (s.setDioMap k).halted = s.halted ∧
    (s.setDioMap k).modeShadow = s.modeShadow ∧ (s.setDioMap k).faults = s.faults ∧ (s.setDioMap k).log = s.log ∧
    (s.setDioMap k).par = s.par ∧ (s.setDioMap k).inbox = s.inbox ∧ (s.setDioMap k).waiting = s.waiting ∧
    (s.setDioMap k).chipAnswers = s.chipAnswers ∧ (s.setDioMap k).draws = s.draws ∧ (s.setDioMap k).result = s.result :=
  ⟨rfl, rfl, rfl, rfl, rfl, rfl, rfl, rfl, rfl, rfl, rfl, rfl, rfl, rfl, rfl, rfl, rfl, rfl, rfl, rfl, rfl, rfl, rfl,
    rfl, rfl, rfl, rfl, rfl, rfl, rfl, rfl⟩

@[simp] theorem State.setDioMap_views (s : State) (k : DioKind) :
    (s.setDioMap k).regByte = s.regByte ∧ (s.setDioMap k).planAt = s.planAt ∧
    (s.setDioMap k).numChannels = s.numChannels ∧ (s.setDioMap k).scannerMode = s.scannerMode ∧
    (s.setDioMap k).wrote = s.wrote ∧ (s.setDioMap k).didRead = s.didRead ∧ (s.setDioMap k).modeEvents = s.modeEvents ∧
    (s.setDioMap k).frequencyEvents = s.frequencyEvents ∧ (s.setDioMap k).rateEvents = s.rateEvents ∧
    (s.setDioMap k).rateLog = s.rateLog ∧ (s.setDioMap k).oracle = s.oracle ∧ (s.setDioMap k).regValue = s.regValue :=
  State.allViews_congr rfl rfl rfl rfl rfl rfl

/-! ## Hop and Flags -/

@[simp] theorem State.minSf_sf (s : State) : s.minSf.sf = (s.planAt s.ch).minSF := rfl

@[simp] theorem State.minSf_frame (s : State) :
    s.minSf.radioState = s.radioState ∧ s.minSf.passActive = s.passActive ∧ s.minSf.booted = s.booted ∧
    s.minSf.txPhase = s.txPhase ∧ s.minSf.ch = s.ch ∧ s.minSf.cfgSF = s.cfgSF ∧ s.minSf.cfgHop = s.cfgHop ∧
    s.minSf.cfgCad = s.cfgCad ∧ s.minSf.cfgCh = s.cfgCh ∧ s.minSf.cfg0 = s.cfg0 ∧ s.minSf.pending = s.pending ∧
    s.minSf.eventTime = s.eventTime ∧ s.minSf.doneTime = s.doneTime ∧ s.minSf.clock = s.clock ∧
    s.minSf.lastRssi = s.lastRssi ∧ s.minSf.inValid = s.inValid ∧ s.minSf.inbound = s.inbound ∧
    s.minSf.outValid = s.outValid ∧ s.minSf.outbound = s.outbound ∧ s.minSf.stats = s.stats ∧
    s.minSf.halted = s.halted ∧ s.minSf.modeShadow = s.modeShadow ∧ s.minSf.faults = s.faults ∧ s.minSf.log = s.log ∧
    s.minSf.history = s.history ∧ s.minSf.par = s.par ∧ s.minSf.inbox = s.inbox ∧ s.minSf.waiting = s.waiting ∧
    s.minSf.chipAnswers = s.chipAnswers ∧ s.minSf.draws = s.draws ∧ s.minSf.result = s.result :=
  ⟨rfl, rfl, rfl, rfl, rfl, rfl, rfl, rfl, rfl, rfl, rfl, rfl, rfl, rfl, rfl, rfl, rfl, rfl, rfl, rfl, rfl, rfl, rfl,
    rfl, rfl, rfl, rfl, rfl, rfl, rfl, rfl⟩

@[simp] theorem State.minSf_views (s : State) :
    s.minSf.regByte = s.regByte ∧ s.minSf.planAt = s.planAt ∧ s.minSf.numChannels = s.numChannels ∧
    s.minSf.scannerMode = s.scannerMode ∧ s.minSf.wrote = s.wrote ∧ s.minSf.didRead = s.didRead ∧
    s.minSf.modeEvents = s.modeEvents ∧ s.minSf.frequencyEvents = s.frequencyEvents ∧
    s.minSf.rateEvents = s.rateEvents ∧ s.minSf.rateLog = s.rateLog ∧ s.minSf.oracle = s.oracle ∧
    s.minSf.regValue = s.regValue :=
  State.allViews_congr rfl rfl rfl rfl rfl rfl

@[simp] theorem State.advanceChannel_ch (s : State) : s.advanceChannel.ch = (s.ch + 1) % s.numChannels := rfl

@[simp] theorem State.advanceChannel_sf (s : State) :
    s.advanceChannel.sf = (s.planAt ((s.ch + 1) % s.numChannels)).minSF := rfl

@[simp] theorem State.advanceChannel_frame (s : State) :
    s.advanceChannel.radioState = s.radioState ∧ s.advanceChannel.passActive = s.passActive ∧
    s.advanceChannel.booted = s.booted ∧ s.advanceChannel.txPhase = s.txPhase ∧ s.advanceChannel.cfgSF = s.cfgSF ∧
    s.advanceChannel.cfgHop = s.cfgHop ∧ s.advanceChannel.cfgCad = s.cfgCad ∧ s.advanceChannel.cfgCh = s.cfgCh ∧
    s.advanceChannel.cfg0 = s.cfg0 ∧ s.advanceChannel.pending = s.pending ∧ s.advanceChannel.eventTime = s.eventTime ∧
    s.advanceChannel.doneTime = s.doneTime ∧ s.advanceChannel.clock = s.clock ∧
    s.advanceChannel.lastRssi = s.lastRssi ∧ s.advanceChannel.inValid = s.inValid ∧
    s.advanceChannel.inbound = s.inbound ∧ s.advanceChannel.outValid = s.outValid ∧
    s.advanceChannel.outbound = s.outbound ∧ s.advanceChannel.stats = s.stats ∧ s.advanceChannel.halted = s.halted ∧
    s.advanceChannel.modeShadow = s.modeShadow ∧ s.advanceChannel.faults = s.faults ∧ s.advanceChannel.log = s.log ∧
    s.advanceChannel.history = s.history ∧ s.advanceChannel.par = s.par ∧ s.advanceChannel.inbox = s.inbox ∧
    s.advanceChannel.waiting = s.waiting ∧ s.advanceChannel.chipAnswers = s.chipAnswers ∧
    s.advanceChannel.draws = s.draws ∧ s.advanceChannel.result = s.result :=
  ⟨rfl, rfl, rfl, rfl, rfl, rfl, rfl, rfl, rfl, rfl, rfl, rfl, rfl, rfl, rfl, rfl, rfl, rfl, rfl, rfl, rfl, rfl, rfl,
    rfl, rfl, rfl, rfl, rfl, rfl, rfl⟩

@[simp] theorem State.advanceChannel_views (s : State) :
    s.advanceChannel.regByte = s.regByte ∧ s.advanceChannel.planAt = s.planAt ∧
    s.advanceChannel.numChannels = s.numChannels ∧ s.advanceChannel.scannerMode = s.scannerMode ∧
    s.advanceChannel.wrote = s.wrote ∧ s.advanceChannel.didRead = s.didRead ∧
    s.advanceChannel.modeEvents = s.modeEvents ∧ s.advanceChannel.frequencyEvents = s.frequencyEvents ∧
    s.advanceChannel.rateEvents = s.rateEvents ∧ s.advanceChannel.rateLog = s.rateLog ∧
    s.advanceChannel.oracle = s.oracle ∧ s.advanceChannel.regValue = s.regValue :=
  State.allViews_congr rfl rfl rfl rfl rfl rfl

@[simp] theorem State.rebaseline_eventTime (s : State) : s.rebaseline.eventTime = rebased s.clock s.eventTime := rfl

@[simp] theorem State.rebaseline_doneTime (s : State) : s.rebaseline.doneTime = rebased s.clock s.doneTime := rfl

@[simp] theorem State.rebaseline_frame (s : State) :
    s.rebaseline.radioState = s.radioState ∧ s.rebaseline.passActive = s.passActive ∧ s.rebaseline.booted = s.booted ∧
    s.rebaseline.txPhase = s.txPhase ∧ s.rebaseline.sf = s.sf ∧ s.rebaseline.ch = s.ch ∧ s.rebaseline.cfgSF = s.cfgSF ∧
    s.rebaseline.cfgHop = s.cfgHop ∧ s.rebaseline.cfgCad = s.cfgCad ∧ s.rebaseline.cfgCh = s.cfgCh ∧
    s.rebaseline.cfg0 = s.cfg0 ∧ s.rebaseline.pending = s.pending ∧ s.rebaseline.clock = s.clock ∧
    s.rebaseline.lastRssi = s.lastRssi ∧ s.rebaseline.inValid = s.inValid ∧ s.rebaseline.inbound = s.inbound ∧
    s.rebaseline.outValid = s.outValid ∧ s.rebaseline.outbound = s.outbound ∧ s.rebaseline.stats = s.stats ∧
    s.rebaseline.halted = s.halted ∧ s.rebaseline.modeShadow = s.modeShadow ∧ s.rebaseline.faults = s.faults ∧
    s.rebaseline.log = s.log ∧ s.rebaseline.history = s.history ∧ s.rebaseline.par = s.par ∧
    s.rebaseline.inbox = s.inbox ∧ s.rebaseline.waiting = s.waiting ∧ s.rebaseline.chipAnswers = s.chipAnswers ∧
    s.rebaseline.draws = s.draws ∧ s.rebaseline.result = s.result :=
  ⟨rfl, rfl, rfl, rfl, rfl, rfl, rfl, rfl, rfl, rfl, rfl, rfl, rfl, rfl, rfl, rfl, rfl, rfl, rfl, rfl, rfl, rfl, rfl,
    rfl, rfl, rfl, rfl, rfl, rfl, rfl⟩

@[simp] theorem State.rebaseline_views (s : State) :
    s.rebaseline.regByte = s.regByte ∧ s.rebaseline.planAt = s.planAt ∧ s.rebaseline.numChannels = s.numChannels ∧
    s.rebaseline.scannerMode = s.scannerMode ∧ s.rebaseline.wrote = s.wrote ∧ s.rebaseline.didRead = s.didRead ∧
    s.rebaseline.modeEvents = s.modeEvents ∧ s.rebaseline.frequencyEvents = s.frequencyEvents ∧
    s.rebaseline.rateEvents = s.rateEvents ∧ s.rebaseline.rateLog = s.rateLog ∧ s.rebaseline.oracle = s.oracle ∧
    s.rebaseline.regValue = s.regValue :=
  State.allViews_congr rfl rfl rfl rfl rfl rfl

@[simp] theorem State.stampEvent_eventTime (s : State) (flags : Byte) :
    (s.stampEvent flags).eventTime = if flags = 0 then s.eventTime else s.clock := rfl

@[simp] theorem State.stampEvent_frame (s : State) (flags : Byte) :
    (s.stampEvent flags).radioState = s.radioState ∧ (s.stampEvent flags).passActive = s.passActive ∧
    (s.stampEvent flags).booted = s.booted ∧ (s.stampEvent flags).txPhase = s.txPhase ∧
    (s.stampEvent flags).sf = s.sf ∧ (s.stampEvent flags).ch = s.ch ∧ (s.stampEvent flags).cfgSF = s.cfgSF ∧
    (s.stampEvent flags).cfgHop = s.cfgHop ∧ (s.stampEvent flags).cfgCad = s.cfgCad ∧
    (s.stampEvent flags).cfgCh = s.cfgCh ∧ (s.stampEvent flags).cfg0 = s.cfg0 ∧
    (s.stampEvent flags).pending = s.pending ∧ (s.stampEvent flags).doneTime = s.doneTime ∧
    (s.stampEvent flags).clock = s.clock ∧ (s.stampEvent flags).lastRssi = s.lastRssi ∧
    (s.stampEvent flags).inValid = s.inValid ∧ (s.stampEvent flags).inbound = s.inbound ∧
    (s.stampEvent flags).outValid = s.outValid ∧ (s.stampEvent flags).outbound = s.outbound ∧
    (s.stampEvent flags).stats = s.stats ∧ (s.stampEvent flags).halted = s.halted ∧
    (s.stampEvent flags).modeShadow = s.modeShadow ∧ (s.stampEvent flags).faults = s.faults ∧
    (s.stampEvent flags).log = s.log ∧ (s.stampEvent flags).history = s.history ∧ (s.stampEvent flags).par = s.par ∧
    (s.stampEvent flags).inbox = s.inbox ∧ (s.stampEvent flags).waiting = s.waiting ∧
    (s.stampEvent flags).chipAnswers = s.chipAnswers ∧ (s.stampEvent flags).draws = s.draws ∧
    (s.stampEvent flags).result = s.result :=
  ⟨rfl, rfl, rfl, rfl, rfl, rfl, rfl, rfl, rfl, rfl, rfl, rfl, rfl, rfl, rfl, rfl, rfl, rfl, rfl, rfl, rfl, rfl, rfl,
    rfl, rfl, rfl, rfl, rfl, rfl, rfl, rfl⟩

@[simp] theorem State.stampEvent_views (s : State) (flags : Byte) :
    (s.stampEvent flags).regByte = s.regByte ∧ (s.stampEvent flags).planAt = s.planAt ∧
    (s.stampEvent flags).numChannels = s.numChannels ∧ (s.stampEvent flags).scannerMode = s.scannerMode ∧
    (s.stampEvent flags).wrote = s.wrote ∧ (s.stampEvent flags).didRead = s.didRead ∧
    (s.stampEvent flags).modeEvents = s.modeEvents ∧ (s.stampEvent flags).frequencyEvents = s.frequencyEvents ∧
    (s.stampEvent flags).rateEvents = s.rateEvents ∧ (s.stampEvent flags).rateLog = s.rateLog ∧
    (s.stampEvent flags).oracle = s.oracle ∧ (s.stampEvent flags).regValue = s.regValue :=
  State.allViews_congr rfl rfl rfl rfl rfl rfl

/-! ## Arming, Scheduler, Packet and Pass -/

@[simp] theorem State.loadTxHeader_history (s : State) :
    s.loadTxHeader.history = s.history ++ [s.wrote .invertIq (iqValue s.par s.outbound.iq),
      s.wrote .payloadLength s.outbound.len, s.wrote .fifoAddrPtr s.par.txFifoBase] := by
  simp [State.loadTxHeader, State.wrote]

@[simp] theorem State.loadTxHeader_frame (s : State) :
    s.loadTxHeader.radioState = s.radioState ∧ s.loadTxHeader.passActive = s.passActive ∧
    s.loadTxHeader.booted = s.booted ∧ s.loadTxHeader.txPhase = s.txPhase ∧ s.loadTxHeader.sf = s.sf ∧
    s.loadTxHeader.ch = s.ch ∧ s.loadTxHeader.cfgSF = s.cfgSF ∧ s.loadTxHeader.cfgHop = s.cfgHop ∧
    s.loadTxHeader.cfgCad = s.cfgCad ∧ s.loadTxHeader.cfgCh = s.cfgCh ∧ s.loadTxHeader.cfg0 = s.cfg0 ∧
    s.loadTxHeader.pending = s.pending ∧ s.loadTxHeader.eventTime = s.eventTime ∧
    s.loadTxHeader.doneTime = s.doneTime ∧ s.loadTxHeader.clock = s.clock ∧ s.loadTxHeader.lastRssi = s.lastRssi ∧
    s.loadTxHeader.inValid = s.inValid ∧ s.loadTxHeader.inbound = s.inbound ∧ s.loadTxHeader.outValid = s.outValid ∧
    s.loadTxHeader.outbound = s.outbound ∧ s.loadTxHeader.stats = s.stats ∧ s.loadTxHeader.halted = s.halted ∧
    s.loadTxHeader.modeShadow = s.modeShadow ∧ s.loadTxHeader.faults = s.faults ∧ s.loadTxHeader.log = s.log ∧
    s.loadTxHeader.par = s.par ∧ s.loadTxHeader.inbox = s.inbox ∧ s.loadTxHeader.waiting = s.waiting ∧
    s.loadTxHeader.chipAnswers = s.chipAnswers ∧ s.loadTxHeader.draws = s.draws ∧ s.loadTxHeader.result = s.result :=
  by simp [State.loadTxHeader]

@[simp] theorem State.loadTxHeader_views (s : State) :
    s.loadTxHeader.regByte = s.regByte ∧ s.loadTxHeader.planAt = s.planAt ∧
    s.loadTxHeader.numChannels = s.numChannels ∧ s.loadTxHeader.scannerMode = s.scannerMode ∧
    s.loadTxHeader.wrote = s.wrote ∧ s.loadTxHeader.didRead = s.didRead ∧ s.loadTxHeader.modeEvents = s.modeEvents ∧
    s.loadTxHeader.frequencyEvents = s.frequencyEvents ∧ s.loadTxHeader.rateEvents = s.rateEvents ∧
    s.loadTxHeader.rateLog = s.rateLog ∧ s.loadTxHeader.oracle = s.oracle ∧ s.loadTxHeader.regValue = s.regValue :=
  State.allViews_congr (by simp) (by simp) (by simp) (by simp) (by simp) (by simp)

@[simp] theorem State.txPrepare_history (s : State) :
    s.txPrepare.history = s.history ++ [s.wrote .irqFlags 0xFF, s.wrote .irqFlagsMask 0xF7] := by
  simp [State.txPrepare, State.wrote, irqMask]

@[simp] theorem State.txPrepare_frame (s : State) :
    s.txPrepare.radioState = s.radioState ∧ s.txPrepare.passActive = s.passActive ∧ s.txPrepare.booted = s.booted ∧
    s.txPrepare.txPhase = s.txPhase ∧ s.txPrepare.sf = s.sf ∧ s.txPrepare.ch = s.ch ∧ s.txPrepare.cfgSF = s.cfgSF ∧
    s.txPrepare.cfgHop = s.cfgHop ∧ s.txPrepare.cfgCad = s.cfgCad ∧ s.txPrepare.cfgCh = s.cfgCh ∧
    s.txPrepare.cfg0 = s.cfg0 ∧ s.txPrepare.pending = s.pending ∧ s.txPrepare.eventTime = s.eventTime ∧
    s.txPrepare.doneTime = s.doneTime ∧ s.txPrepare.clock = s.clock ∧ s.txPrepare.lastRssi = s.lastRssi ∧
    s.txPrepare.inValid = s.inValid ∧ s.txPrepare.inbound = s.inbound ∧ s.txPrepare.outValid = s.outValid ∧
    s.txPrepare.outbound = s.outbound ∧ s.txPrepare.stats = s.stats ∧ s.txPrepare.halted = s.halted ∧
    s.txPrepare.modeShadow = s.modeShadow ∧ s.txPrepare.faults = s.faults ∧ s.txPrepare.log = s.log ∧
    s.txPrepare.par = s.par ∧ s.txPrepare.inbox = s.inbox ∧ s.txPrepare.waiting = s.waiting ∧
    s.txPrepare.chipAnswers = s.chipAnswers ∧ s.txPrepare.draws = s.draws ∧ s.txPrepare.result = s.result :=
  by simp [State.txPrepare]

@[simp] theorem State.txPrepare_views (s : State) :
    s.txPrepare.regByte = s.regByte ∧ s.txPrepare.planAt = s.planAt ∧ s.txPrepare.numChannels = s.numChannels ∧
    s.txPrepare.scannerMode = s.scannerMode ∧ s.txPrepare.wrote = s.wrote ∧ s.txPrepare.didRead = s.didRead ∧
    s.txPrepare.modeEvents = s.modeEvents ∧ s.txPrepare.frequencyEvents = s.frequencyEvents ∧
    s.txPrepare.rateEvents = s.rateEvents ∧ s.txPrepare.rateLog = s.rateLog ∧ s.txPrepare.oracle = s.oracle ∧
    s.txPrepare.regValue = s.regValue :=
  State.allViews_congr (by simp) (by simp) (by simp) (by simp) (by simp) (by simp)

@[simp] theorem State.armTail_chipAnswers (s : State) (k : DioKind) (m : Mode) :
    (s.armTail k m).chipAnswers = answersAfter (s.regByte .opMode) s.chipAnswers := rfl

@[simp] theorem State.armTail_draws (s : State) (k : DioKind) (m : Mode) :
    (s.armTail k m).draws = drawsAfter (s.regByte .opMode) s.chipAnswers s.draws := rfl

@[simp] theorem State.armTail_history (s : State) (k : DioKind) (m : Mode) :
    (s.armTail k m).history = s.history ++ ([s.wrote .dioMapping1 (dioValue s.par.dioMap k),
      s.wrote .irqFlagsMask (irqMask k)] ++ s.modeEvents (s.regValue .opMode) m) := by
  simp [State.armTail, State.wrote]

@[simp] theorem State.armTail_modeShadow (s : State) (k : DioKind) (m : Mode) :
    (s.armTail k m).modeShadow = .known m := rfl

@[simp] theorem State.armTail_frame (s : State) (k : DioKind) (m : Mode) :
    (s.armTail k m).radioState = s.radioState ∧ (s.armTail k m).passActive = s.passActive ∧
    (s.armTail k m).booted = s.booted ∧ (s.armTail k m).txPhase = s.txPhase ∧ (s.armTail k m).sf = s.sf ∧
    (s.armTail k m).ch = s.ch ∧ (s.armTail k m).cfgSF = s.cfgSF ∧ (s.armTail k m).cfgHop = s.cfgHop ∧
    (s.armTail k m).cfgCad = s.cfgCad ∧ (s.armTail k m).cfgCh = s.cfgCh ∧ (s.armTail k m).cfg0 = s.cfg0 ∧
    (s.armTail k m).pending = s.pending ∧ (s.armTail k m).eventTime = s.eventTime ∧
    (s.armTail k m).doneTime = s.doneTime ∧ (s.armTail k m).clock = s.clock ∧ (s.armTail k m).lastRssi = s.lastRssi ∧
    (s.armTail k m).inValid = s.inValid ∧ (s.armTail k m).inbound = s.inbound ∧ (s.armTail k m).outValid = s.outValid ∧
    (s.armTail k m).outbound = s.outbound ∧ (s.armTail k m).stats = s.stats ∧ (s.armTail k m).halted = s.halted ∧
    (s.armTail k m).faults = s.faults ∧ (s.armTail k m).log = s.log ∧ (s.armTail k m).par = s.par ∧
    (s.armTail k m).inbox = s.inbox ∧ (s.armTail k m).waiting = s.waiting ∧ (s.armTail k m).result = s.result :=
  by simp [State.armTail]

@[simp] theorem State.armTail_views (s : State) (k : DioKind) (m : Mode) :
    (s.armTail k m).regByte = s.regByte ∧ (s.armTail k m).planAt = s.planAt ∧
    (s.armTail k m).numChannels = s.numChannels ∧ (s.armTail k m).scannerMode = s.scannerMode ∧
    (s.armTail k m).wrote = s.wrote ∧ (s.armTail k m).didRead = s.didRead ∧ (s.armTail k m).modeEvents = s.modeEvents ∧
    (s.armTail k m).frequencyEvents = s.frequencyEvents ∧ (s.armTail k m).rateEvents = s.rateEvents ∧
    (s.armTail k m).rateLog = s.rateLog :=
  State.views_congr (by simp) (by simp) (by simp) (by simp)

@[simp] theorem State.twoModeReads_chipAnswers (s : State) :
    s.twoModeReads.chipAnswers = answersAfter (s.regByte .opMode) (answersAfter (s.regByte .opMode) s.chipAnswers) := by
  simp [State.twoModeReads]

@[simp] theorem State.twoModeReads_draws (s : State) :
    s.twoModeReads.draws = drawsAfter (s.regByte .opMode) (answersAfter (s.regByte .opMode) s.chipAnswers)
      (drawsAfter (s.regByte .opMode) s.chipAnswers s.draws) := by
  simp [State.twoModeReads]

@[simp] theorem State.twoModeReads_frame (s : State) :
    s.twoModeReads.radioState = s.radioState ∧ s.twoModeReads.passActive = s.passActive ∧
    s.twoModeReads.booted = s.booted ∧ s.twoModeReads.txPhase = s.txPhase ∧ s.twoModeReads.sf = s.sf ∧
    s.twoModeReads.ch = s.ch ∧ s.twoModeReads.cfgSF = s.cfgSF ∧ s.twoModeReads.cfgHop = s.cfgHop ∧
    s.twoModeReads.cfgCad = s.cfgCad ∧ s.twoModeReads.cfgCh = s.cfgCh ∧ s.twoModeReads.cfg0 = s.cfg0 ∧
    s.twoModeReads.pending = s.pending ∧ s.twoModeReads.eventTime = s.eventTime ∧
    s.twoModeReads.doneTime = s.doneTime ∧ s.twoModeReads.clock = s.clock ∧ s.twoModeReads.lastRssi = s.lastRssi ∧
    s.twoModeReads.inValid = s.inValid ∧ s.twoModeReads.inbound = s.inbound ∧ s.twoModeReads.outValid = s.outValid ∧
    s.twoModeReads.outbound = s.outbound ∧ s.twoModeReads.stats = s.stats ∧ s.twoModeReads.halted = s.halted ∧
    s.twoModeReads.modeShadow = s.modeShadow ∧ s.twoModeReads.faults = s.faults ∧ s.twoModeReads.log = s.log ∧
    s.twoModeReads.history = s.history ∧ s.twoModeReads.par = s.par ∧ s.twoModeReads.inbox = s.inbox ∧
    s.twoModeReads.waiting = s.waiting ∧ s.twoModeReads.result = s.result :=
  by simp only [State.twoModeReads, and_true]

@[simp] theorem State.twoModeReads_views (s : State) :
    s.twoModeReads.regByte = s.regByte ∧ s.twoModeReads.planAt = s.planAt ∧
    s.twoModeReads.numChannels = s.numChannels ∧ s.twoModeReads.scannerMode = s.scannerMode ∧
    s.twoModeReads.wrote = s.wrote ∧ s.twoModeReads.didRead = s.didRead ∧ s.twoModeReads.modeEvents = s.modeEvents ∧
    s.twoModeReads.frequencyEvents = s.frequencyEvents ∧ s.twoModeReads.rateEvents = s.rateEvents ∧
    s.twoModeReads.rateLog = s.rateLog :=
  State.views_congr (by simp) (by simp) (by simp) (by simp)

@[simp] theorem State.scannerArmed_chipAnswers (s : State) :
    s.scannerArmed.chipAnswers = answersAfter (s.regByte .opMode) (answersAfter (s.regByte .opMode) s.chipAnswers) := by
  simp [State.scannerArmed, State.twoModeReads]

@[simp] theorem State.scannerArmed_draws (s : State) :
    s.scannerArmed.draws = drawsAfter (s.regByte .opMode) (answersAfter (s.regByte .opMode) s.chipAnswers)
      (drawsAfter (s.regByte .opMode) s.chipAnswers s.draws) := by
  simp [State.scannerArmed, State.twoModeReads]

@[simp] theorem State.scannerArmed_modeShadow (s : State) : s.scannerArmed.modeShadow = .known .cad := by
  simp [State.scannerArmed]

@[simp] theorem State.scannerArmed_eventTime (s : State) : s.scannerArmed.eventTime = s.clock := by
  simp [State.scannerArmed]

@[simp] theorem State.scannerArmed_doneTime (s : State) : s.scannerArmed.doneTime = s.clock := by
  simp [State.scannerArmed]

@[simp] theorem State.scannerArmed_history (s : State) :
    s.scannerArmed.history = s.history ++ s.armEvents s.sf .cad .cad s.opMode1 s.opMode2 := by
  simp [State.scannerArmed]

@[simp] theorem State.scannerArmed_log (s : State) : s.scannerArmed.log = s.log ++ s.rateLog (s.sf.setWidth 8) := by
  simp [State.scannerArmed]

@[simp] theorem State.scannerArmed_frame (s : State) :
    s.scannerArmed.radioState = s.radioState ∧ s.scannerArmed.passActive = s.passActive ∧
    s.scannerArmed.booted = s.booted ∧ s.scannerArmed.txPhase = s.txPhase ∧ s.scannerArmed.sf = s.sf ∧
    s.scannerArmed.ch = s.ch ∧ s.scannerArmed.cfgSF = s.cfgSF ∧ s.scannerArmed.cfgHop = s.cfgHop ∧
    s.scannerArmed.cfgCad = s.cfgCad ∧ s.scannerArmed.cfgCh = s.cfgCh ∧ s.scannerArmed.cfg0 = s.cfg0 ∧
    s.scannerArmed.pending = s.pending ∧ s.scannerArmed.clock = s.clock ∧ s.scannerArmed.lastRssi = s.lastRssi ∧
    s.scannerArmed.inValid = s.inValid ∧ s.scannerArmed.inbound = s.inbound ∧ s.scannerArmed.outValid = s.outValid ∧
    s.scannerArmed.outbound = s.outbound ∧ s.scannerArmed.stats = s.stats ∧ s.scannerArmed.halted = s.halted ∧
    s.scannerArmed.faults = s.faults ∧ s.scannerArmed.par = s.par ∧ s.scannerArmed.inbox = s.inbox ∧
    s.scannerArmed.waiting = s.waiting ∧ s.scannerArmed.result = s.result :=
  by simp only [State.scannerArmed, State.twoModeReads, and_true]

@[simp] theorem State.scannerArmed_views (s : State) :
    s.scannerArmed.regByte = s.regByte ∧ s.scannerArmed.planAt = s.planAt ∧
    s.scannerArmed.numChannels = s.numChannels ∧ s.scannerArmed.scannerMode = s.scannerMode ∧
    s.scannerArmed.wrote = s.wrote ∧ s.scannerArmed.didRead = s.didRead ∧ s.scannerArmed.modeEvents = s.modeEvents ∧
    s.scannerArmed.frequencyEvents = s.frequencyEvents ∧ s.scannerArmed.rateEvents = s.rateEvents ∧
    s.scannerArmed.rateLog = s.rateLog :=
  State.views_congr (by simp) (by simp) (by simp) (by simp)

@[simp] theorem State.receiverArmed_chipAnswers (s : State) :
    s.receiverArmed.chipAnswers = answersAfter (s.regByte .opMode) (answersAfter (s.regByte .opMode) s.chipAnswers) := by
  simp [State.receiverArmed, State.twoModeReads]

@[simp] theorem State.receiverArmed_draws (s : State) :
    s.receiverArmed.draws = drawsAfter (s.regByte .opMode) (answersAfter (s.regByte .opMode) s.chipAnswers)
      (drawsAfter (s.regByte .opMode) s.chipAnswers s.draws) := by
  simp [State.receiverArmed, State.twoModeReads]

@[simp] theorem State.receiverArmed_sf (s : State) : s.receiverArmed.sf = s.cfgSF := by
  simp [State.receiverArmed]

@[simp] theorem State.receiverArmed_modeShadow (s : State) : s.receiverArmed.modeShadow = .known .rxCont := by
  simp [State.receiverArmed]

@[simp] theorem State.receiverArmed_eventTime (s : State) : s.receiverArmed.eventTime = s.clock := by
  simp [State.receiverArmed]

@[simp] theorem State.receiverArmed_history (s : State) :
    s.receiverArmed.history = s.history ++ s.armEvents s.cfgSF .rx .rxCont s.opMode1 s.opMode2 := by
  simp [State.receiverArmed]

@[simp] theorem State.receiverArmed_log (s : State) :
    s.receiverArmed.log = s.log ++ s.rateLog (s.cfgSF.setWidth 8) := by
  simp [State.receiverArmed]

@[simp] theorem State.receiverArmed_frame (s : State) :
    s.receiverArmed.radioState = s.radioState ∧ s.receiverArmed.passActive = s.passActive ∧
    s.receiverArmed.booted = s.booted ∧ s.receiverArmed.txPhase = s.txPhase ∧ s.receiverArmed.ch = s.ch ∧
    s.receiverArmed.cfgSF = s.cfgSF ∧ s.receiverArmed.cfgHop = s.cfgHop ∧ s.receiverArmed.cfgCad = s.cfgCad ∧
    s.receiverArmed.cfgCh = s.cfgCh ∧ s.receiverArmed.cfg0 = s.cfg0 ∧ s.receiverArmed.pending = s.pending ∧
    s.receiverArmed.doneTime = s.doneTime ∧ s.receiverArmed.clock = s.clock ∧ s.receiverArmed.lastRssi = s.lastRssi ∧
    s.receiverArmed.inValid = s.inValid ∧ s.receiverArmed.inbound = s.inbound ∧ s.receiverArmed.outValid = s.outValid ∧
    s.receiverArmed.outbound = s.outbound ∧ s.receiverArmed.stats = s.stats ∧ s.receiverArmed.halted = s.halted ∧
    s.receiverArmed.faults = s.faults ∧ s.receiverArmed.par = s.par ∧ s.receiverArmed.inbox = s.inbox ∧
    s.receiverArmed.waiting = s.waiting ∧ s.receiverArmed.result = s.result :=
  by simp only [State.receiverArmed, State.twoModeReads, and_true]

@[simp] theorem State.receiverArmed_views (s : State) :
    s.receiverArmed.regByte = s.regByte ∧ s.receiverArmed.planAt = s.planAt ∧
    s.receiverArmed.numChannels = s.numChannels ∧ s.receiverArmed.scannerMode = s.scannerMode ∧
    s.receiverArmed.wrote = s.wrote ∧ s.receiverArmed.didRead = s.didRead ∧ s.receiverArmed.modeEvents = s.modeEvents ∧
    s.receiverArmed.frequencyEvents = s.frequencyEvents ∧ s.receiverArmed.rateEvents = s.rateEvents ∧
    s.receiverArmed.rateLog = s.rateLog :=
  State.views_congr (by simp) (by simp) (by simp) (by simp)

@[simp] theorem State.keyed_chipAnswers (s : State) :
    s.keyed.chipAnswers = answersAfter (s.regByte .opMode) (answersAfter (s.regByte .opMode) s.chipAnswers) := by
  simp [State.keyed, State.twoModeReads]

@[simp] theorem State.keyed_draws (s : State) :
    s.keyed.draws = drawsAfter (s.regByte .opMode) (answersAfter (s.regByte .opMode) s.chipAnswers)
      (drawsAfter (s.regByte .opMode) s.chipAnswers s.draws) := by
  simp [State.keyed, State.twoModeReads]

@[simp] theorem State.keyed_modeShadow (s : State) : s.keyed.modeShadow = .known .tx := by
  simp [State.keyed]

@[simp] theorem State.keyed_eventTime (s : State) : s.keyed.eventTime = s.clock := by
  simp [State.keyed]

@[simp] theorem State.keyed_history (s : State) : s.keyed.history = s.history ++ s.keyEvents := by
  simp [State.keyed]

@[simp] theorem State.keyed_log (s : State) : s.keyed.log = s.log ++ s.rateLog s.outbound.sf := by
  simp [State.keyed]

@[simp] theorem State.keyed_frame (s : State) :
    s.keyed.radioState = s.radioState ∧ s.keyed.passActive = s.passActive ∧ s.keyed.booted = s.booted ∧
    s.keyed.txPhase = s.txPhase ∧ s.keyed.sf = s.sf ∧ s.keyed.ch = s.ch ∧ s.keyed.cfgSF = s.cfgSF ∧
    s.keyed.cfgHop = s.cfgHop ∧ s.keyed.cfgCad = s.cfgCad ∧ s.keyed.cfgCh = s.cfgCh ∧ s.keyed.cfg0 = s.cfg0 ∧
    s.keyed.pending = s.pending ∧ s.keyed.doneTime = s.doneTime ∧ s.keyed.clock = s.clock ∧
    s.keyed.lastRssi = s.lastRssi ∧ s.keyed.inValid = s.inValid ∧ s.keyed.inbound = s.inbound ∧
    s.keyed.outValid = s.outValid ∧ s.keyed.outbound = s.outbound ∧ s.keyed.stats = s.stats ∧
    s.keyed.halted = s.halted ∧ s.keyed.faults = s.faults ∧ s.keyed.par = s.par ∧ s.keyed.inbox = s.inbox ∧
    s.keyed.waiting = s.waiting ∧ s.keyed.result = s.result :=
  by simp only [State.keyed, State.twoModeReads, and_true]

@[simp] theorem State.keyed_views (s : State) :
    s.keyed.regByte = s.regByte ∧ s.keyed.planAt = s.planAt ∧ s.keyed.numChannels = s.numChannels ∧
    s.keyed.scannerMode = s.scannerMode ∧ s.keyed.wrote = s.wrote ∧ s.keyed.didRead = s.didRead ∧
    s.keyed.modeEvents = s.modeEvents ∧ s.keyed.frequencyEvents = s.frequencyEvents ∧
    s.keyed.rateEvents = s.rateEvents ∧ s.keyed.rateLog = s.rateLog :=
  State.views_congr (by simp) (by simp) (by simp) (by simp)

@[simp] theorem State.restarted_chipAnswers (s : State) :
    s.restarted.chipAnswers = answersAfter (s.regByte .opMode) (answersAfter (s.regByte .opMode) s.chipAnswers) := by
  simp [State.restarted, State.twoModeReads]

@[simp] theorem State.restarted_draws (s : State) :
    s.restarted.draws = drawsAfter (s.regByte .opMode) (answersAfter (s.regByte .opMode) s.chipAnswers)
      (drawsAfter (s.regByte .opMode) s.chipAnswers s.draws) := by
  simp [State.restarted, State.twoModeReads]

@[simp] theorem State.restarted_modeShadow (s : State) : s.restarted.modeShadow = .known .standby := by
  simp [State.restarted]

@[simp] theorem State.restarted_radioState (s : State) : s.restarted.radioState = 0 := by
  simp [State.restarted]

@[simp] theorem State.restarted_history (s : State) :
    s.restarted.history = s.history ++ s.modeEvents s.opMode1 .sleep ++ s.modeEvents s.opMode2 .standby ++
      [s.wrote .irqFlags 0xFF, s.wrote .irqFlagsMask 0x00] := by
  simp [State.restarted]

@[simp] theorem State.restarted_frame (s : State) :
    s.restarted.passActive = s.passActive ∧ s.restarted.booted = s.booted ∧ s.restarted.txPhase = s.txPhase ∧
    s.restarted.sf = s.sf ∧ s.restarted.ch = s.ch ∧ s.restarted.cfgSF = s.cfgSF ∧ s.restarted.cfgHop = s.cfgHop ∧
    s.restarted.cfgCad = s.cfgCad ∧ s.restarted.cfgCh = s.cfgCh ∧ s.restarted.cfg0 = s.cfg0 ∧
    s.restarted.pending = s.pending ∧ s.restarted.eventTime = s.eventTime ∧ s.restarted.doneTime = s.doneTime ∧
    s.restarted.clock = s.clock ∧ s.restarted.lastRssi = s.lastRssi ∧ s.restarted.inValid = s.inValid ∧
    s.restarted.inbound = s.inbound ∧ s.restarted.outValid = s.outValid ∧ s.restarted.outbound = s.outbound ∧
    s.restarted.stats = s.stats ∧ s.restarted.halted = s.halted ∧ s.restarted.faults = s.faults ∧
    s.restarted.log = s.log ∧ s.restarted.par = s.par ∧ s.restarted.inbox = s.inbox ∧ s.restarted.waiting = s.waiting ∧
    s.restarted.result = s.result :=
  by simp only [State.restarted, State.twoModeReads, and_true]

@[simp] theorem State.restarted_views (s : State) :
    s.restarted.regByte = s.regByte ∧ s.restarted.planAt = s.planAt ∧ s.restarted.numChannels = s.numChannels ∧
    s.restarted.scannerMode = s.scannerMode ∧ s.restarted.wrote = s.wrote ∧ s.restarted.didRead = s.didRead ∧
    s.restarted.modeEvents = s.modeEvents ∧ s.restarted.frequencyEvents = s.frequencyEvents ∧
    s.restarted.rateEvents = s.rateEvents ∧ s.restarted.rateLog = s.rateLog :=
  State.views_congr (by simp) (by simp) (by simp) (by simp)

@[simp] theorem State.appended_history (s : State) (events : List SpiEvent) (entries : List LogEntry) :
    (s.appended events entries).history = s.history ++ events := rfl

@[simp] theorem State.appended_log (s : State) (events : List SpiEvent) (entries : List LogEntry) :
    (s.appended events entries).log = s.log ++ entries := rfl

@[simp] theorem State.appended_frame (s : State) (events : List SpiEvent) (entries : List LogEntry) :
    (s.appended events entries).radioState = s.radioState ∧ (s.appended events entries).passActive = s.passActive ∧
    (s.appended events entries).booted = s.booted ∧ (s.appended events entries).txPhase = s.txPhase ∧
    (s.appended events entries).sf = s.sf ∧ (s.appended events entries).ch = s.ch ∧
    (s.appended events entries).cfgSF = s.cfgSF ∧ (s.appended events entries).cfgHop = s.cfgHop ∧
    (s.appended events entries).cfgCad = s.cfgCad ∧ (s.appended events entries).cfgCh = s.cfgCh ∧
    (s.appended events entries).cfg0 = s.cfg0 ∧ (s.appended events entries).pending = s.pending ∧
    (s.appended events entries).eventTime = s.eventTime ∧ (s.appended events entries).doneTime = s.doneTime ∧
    (s.appended events entries).clock = s.clock ∧ (s.appended events entries).lastRssi = s.lastRssi ∧
    (s.appended events entries).inValid = s.inValid ∧ (s.appended events entries).inbound = s.inbound ∧
    (s.appended events entries).outValid = s.outValid ∧ (s.appended events entries).outbound = s.outbound ∧
    (s.appended events entries).stats = s.stats ∧ (s.appended events entries).halted = s.halted ∧
    (s.appended events entries).modeShadow = s.modeShadow ∧ (s.appended events entries).faults = s.faults ∧
    (s.appended events entries).par = s.par ∧ (s.appended events entries).inbox = s.inbox ∧
    (s.appended events entries).waiting = s.waiting ∧ (s.appended events entries).chipAnswers = s.chipAnswers ∧
    (s.appended events entries).draws = s.draws ∧ (s.appended events entries).result = s.result :=
  ⟨rfl, rfl, rfl, rfl, rfl, rfl, rfl, rfl, rfl, rfl, rfl, rfl, rfl, rfl, rfl, rfl, rfl, rfl, rfl, rfl, rfl, rfl, rfl,
    rfl, rfl, rfl, rfl, rfl, rfl, rfl⟩

@[simp] theorem State.appended_views (s : State) (events : List SpiEvent) (entries : List LogEntry) :
    (s.appended events entries).regByte = s.regByte ∧ (s.appended events entries).planAt = s.planAt ∧
    (s.appended events entries).numChannels = s.numChannels ∧ (s.appended events entries).scannerMode = s.scannerMode ∧
    (s.appended events entries).wrote = s.wrote ∧ (s.appended events entries).didRead = s.didRead ∧
    (s.appended events entries).modeEvents = s.modeEvents ∧
    (s.appended events entries).frequencyEvents = s.frequencyEvents ∧
    (s.appended events entries).rateEvents = s.rateEvents ∧ (s.appended events entries).rateLog = s.rateLog ∧
    (s.appended events entries).oracle = s.oracle ∧ (s.appended events entries).regValue = s.regValue :=
  State.allViews_congr rfl rfl rfl rfl rfl rfl

@[simp] theorem State.andWrote_history (s : State) (r : Reg) (v : Byte) :
    (s.andWrote r v).history = s.history ++ [s.wrote r v] := rfl

@[simp] theorem State.andWrote_frame (s : State) (r : Reg) (v : Byte) :
    (s.andWrote r v).radioState = s.radioState ∧ (s.andWrote r v).passActive = s.passActive ∧
    (s.andWrote r v).booted = s.booted ∧ (s.andWrote r v).txPhase = s.txPhase ∧ (s.andWrote r v).sf = s.sf ∧
    (s.andWrote r v).ch = s.ch ∧ (s.andWrote r v).cfgSF = s.cfgSF ∧ (s.andWrote r v).cfgHop = s.cfgHop ∧
    (s.andWrote r v).cfgCad = s.cfgCad ∧ (s.andWrote r v).cfgCh = s.cfgCh ∧ (s.andWrote r v).cfg0 = s.cfg0 ∧
    (s.andWrote r v).pending = s.pending ∧ (s.andWrote r v).eventTime = s.eventTime ∧
    (s.andWrote r v).doneTime = s.doneTime ∧ (s.andWrote r v).clock = s.clock ∧
    (s.andWrote r v).lastRssi = s.lastRssi ∧ (s.andWrote r v).inValid = s.inValid ∧
    (s.andWrote r v).inbound = s.inbound ∧ (s.andWrote r v).outValid = s.outValid ∧
    (s.andWrote r v).outbound = s.outbound ∧ (s.andWrote r v).stats = s.stats ∧ (s.andWrote r v).halted = s.halted ∧
    (s.andWrote r v).modeShadow = s.modeShadow ∧ (s.andWrote r v).faults = s.faults ∧ (s.andWrote r v).log = s.log ∧
    (s.andWrote r v).par = s.par ∧ (s.andWrote r v).inbox = s.inbox ∧ (s.andWrote r v).waiting = s.waiting ∧
    (s.andWrote r v).chipAnswers = s.chipAnswers ∧ (s.andWrote r v).draws = s.draws ∧
    (s.andWrote r v).result = s.result :=
  ⟨rfl, rfl, rfl, rfl, rfl, rfl, rfl, rfl, rfl, rfl, rfl, rfl, rfl, rfl, rfl, rfl, rfl, rfl, rfl, rfl, rfl, rfl, rfl,
    rfl, rfl, rfl, rfl, rfl, rfl, rfl, rfl⟩

@[simp] theorem State.andWrote_views (s : State) (r : Reg) (v : Byte) :
    (s.andWrote r v).regByte = s.regByte ∧ (s.andWrote r v).planAt = s.planAt ∧
    (s.andWrote r v).numChannels = s.numChannels ∧ (s.andWrote r v).scannerMode = s.scannerMode ∧
    (s.andWrote r v).wrote = s.wrote ∧ (s.andWrote r v).didRead = s.didRead ∧
    (s.andWrote r v).modeEvents = s.modeEvents ∧ (s.andWrote r v).frequencyEvents = s.frequencyEvents ∧
    (s.andWrote r v).rateEvents = s.rateEvents ∧ (s.andWrote r v).rateLog = s.rateLog ∧
    (s.andWrote r v).oracle = s.oracle ∧ (s.andWrote r v).regValue = s.regValue :=
  State.allViews_congr rfl rfl rfl rfl rfl rfl

@[simp] theorem State.endPass_passActive (s : State) : s.endPass.passActive = (s.txPhase != .idle) := rfl

@[simp] theorem State.endPass_frame (s : State) :
    s.endPass.radioState = s.radioState ∧ s.endPass.booted = s.booted ∧ s.endPass.txPhase = s.txPhase ∧
    s.endPass.sf = s.sf ∧ s.endPass.ch = s.ch ∧ s.endPass.cfgSF = s.cfgSF ∧ s.endPass.cfgHop = s.cfgHop ∧
    s.endPass.cfgCad = s.cfgCad ∧ s.endPass.cfgCh = s.cfgCh ∧ s.endPass.cfg0 = s.cfg0 ∧ s.endPass.pending = s.pending ∧
    s.endPass.eventTime = s.eventTime ∧ s.endPass.doneTime = s.doneTime ∧ s.endPass.clock = s.clock ∧
    s.endPass.lastRssi = s.lastRssi ∧ s.endPass.inValid = s.inValid ∧ s.endPass.inbound = s.inbound ∧
    s.endPass.outValid = s.outValid ∧ s.endPass.outbound = s.outbound ∧ s.endPass.stats = s.stats ∧
    s.endPass.halted = s.halted ∧ s.endPass.modeShadow = s.modeShadow ∧ s.endPass.faults = s.faults ∧
    s.endPass.log = s.log ∧ s.endPass.history = s.history ∧ s.endPass.par = s.par ∧ s.endPass.inbox = s.inbox ∧
    s.endPass.waiting = s.waiting ∧ s.endPass.chipAnswers = s.chipAnswers ∧ s.endPass.draws = s.draws ∧
    s.endPass.result = s.result :=
  ⟨rfl, rfl, rfl, rfl, rfl, rfl, rfl, rfl, rfl, rfl, rfl, rfl, rfl, rfl, rfl, rfl, rfl, rfl, rfl, rfl, rfl, rfl, rfl,
    rfl, rfl, rfl, rfl, rfl, rfl, rfl, rfl⟩

@[simp] theorem State.endPass_views (s : State) :
    s.endPass.regByte = s.regByte ∧ s.endPass.planAt = s.planAt ∧ s.endPass.numChannels = s.numChannels ∧
    s.endPass.scannerMode = s.scannerMode ∧ s.endPass.wrote = s.wrote ∧ s.endPass.didRead = s.didRead ∧
    s.endPass.modeEvents = s.modeEvents ∧ s.endPass.frequencyEvents = s.frequencyEvents ∧
    s.endPass.rateEvents = s.rateEvents ∧ s.endPass.rateLog = s.rateLog ∧ s.endPass.oracle = s.oracle ∧
    s.endPass.regValue = s.regValue :=
  State.allViews_congr rfl rfl rfl rfl rfl rfl

@[simp] theorem State.startPass_passActive (s : State) : s.startPass.passActive = true := rfl

@[simp] theorem State.startPass_pending (s : State) : s.startPass.pending = false := rfl

@[simp] theorem State.startPass_frame (s : State) :
    s.startPass.radioState = s.radioState ∧ s.startPass.booted = s.booted ∧ s.startPass.txPhase = s.txPhase ∧
    s.startPass.sf = s.sf ∧ s.startPass.ch = s.ch ∧ s.startPass.cfgSF = s.cfgSF ∧ s.startPass.cfgHop = s.cfgHop ∧
    s.startPass.cfgCad = s.cfgCad ∧ s.startPass.cfgCh = s.cfgCh ∧ s.startPass.cfg0 = s.cfg0 ∧
    s.startPass.eventTime = s.eventTime ∧ s.startPass.doneTime = s.doneTime ∧ s.startPass.clock = s.clock ∧
    s.startPass.lastRssi = s.lastRssi ∧ s.startPass.inValid = s.inValid ∧ s.startPass.inbound = s.inbound ∧
    s.startPass.outValid = s.outValid ∧ s.startPass.outbound = s.outbound ∧ s.startPass.stats = s.stats ∧
    s.startPass.halted = s.halted ∧ s.startPass.modeShadow = s.modeShadow ∧ s.startPass.faults = s.faults ∧
    s.startPass.log = s.log ∧ s.startPass.history = s.history ∧ s.startPass.par = s.par ∧ s.startPass.inbox = s.inbox ∧
    s.startPass.waiting = s.waiting ∧ s.startPass.chipAnswers = s.chipAnswers ∧ s.startPass.draws = s.draws ∧
    s.startPass.result = s.result :=
  ⟨rfl, rfl, rfl, rfl, rfl, rfl, rfl, rfl, rfl, rfl, rfl, rfl, rfl, rfl, rfl, rfl, rfl, rfl, rfl, rfl, rfl, rfl, rfl,
    rfl, rfl, rfl, rfl, rfl, rfl, rfl⟩

@[simp] theorem State.startPass_views (s : State) :
    s.startPass.regByte = s.regByte ∧ s.startPass.planAt = s.planAt ∧ s.startPass.numChannels = s.numChannels ∧
    s.startPass.scannerMode = s.scannerMode ∧ s.startPass.wrote = s.wrote ∧ s.startPass.didRead = s.didRead ∧
    s.startPass.modeEvents = s.modeEvents ∧ s.startPass.frequencyEvents = s.frequencyEvents ∧
    s.startPass.rateEvents = s.rateEvents ∧ s.startPass.rateLog = s.rateLog ∧ s.startPass.oracle = s.oracle ∧
    s.startPass.regValue = s.regValue :=
  State.allViews_congr rfl rfl rfl rfl rfl rfl

@[simp] theorem State.setLoraMode_chipAnswers (s : State) :
    s.setLoraMode.chipAnswers = answersAfter (s.regByte .opMode) s.chipAnswers := rfl

@[simp] theorem State.setLoraMode_draws (s : State) :
    s.setLoraMode.draws = drawsAfter (s.regByte .opMode) s.chipAnswers s.draws := rfl

@[simp] theorem State.setLoraMode_history (s : State) :
    s.setLoraMode.history = s.history ++ [s.didRead .opMode (s.regValue .opMode),
      s.wrote .opMode (s.regValue .opMode ||| s.par.modes.loraBit)] := by
  simp [State.setLoraMode, State.didRead, State.wrote]

@[simp] theorem State.setLoraMode_frame (s : State) :
    s.setLoraMode.radioState = s.radioState ∧ s.setLoraMode.passActive = s.passActive ∧
    s.setLoraMode.booted = s.booted ∧ s.setLoraMode.txPhase = s.txPhase ∧ s.setLoraMode.sf = s.sf ∧
    s.setLoraMode.ch = s.ch ∧ s.setLoraMode.cfgSF = s.cfgSF ∧ s.setLoraMode.cfgHop = s.cfgHop ∧
    s.setLoraMode.cfgCad = s.cfgCad ∧ s.setLoraMode.cfgCh = s.cfgCh ∧ s.setLoraMode.cfg0 = s.cfg0 ∧
    s.setLoraMode.pending = s.pending ∧ s.setLoraMode.eventTime = s.eventTime ∧ s.setLoraMode.doneTime = s.doneTime ∧
    s.setLoraMode.clock = s.clock ∧ s.setLoraMode.lastRssi = s.lastRssi ∧ s.setLoraMode.inValid = s.inValid ∧
    s.setLoraMode.inbound = s.inbound ∧ s.setLoraMode.outValid = s.outValid ∧ s.setLoraMode.outbound = s.outbound ∧
    s.setLoraMode.stats = s.stats ∧ s.setLoraMode.halted = s.halted ∧ s.setLoraMode.modeShadow = s.modeShadow ∧
    s.setLoraMode.faults = s.faults ∧ s.setLoraMode.log = s.log ∧ s.setLoraMode.par = s.par ∧
    s.setLoraMode.inbox = s.inbox ∧ s.setLoraMode.waiting = s.waiting ∧ s.setLoraMode.result = s.result :=
  by simp [State.setLoraMode]

@[simp] theorem State.setLoraMode_views (s : State) :
    s.setLoraMode.regByte = s.regByte ∧ s.setLoraMode.planAt = s.planAt ∧ s.setLoraMode.numChannels = s.numChannels ∧
    s.setLoraMode.scannerMode = s.scannerMode ∧ s.setLoraMode.wrote = s.wrote ∧ s.setLoraMode.didRead = s.didRead ∧
    s.setLoraMode.modeEvents = s.modeEvents ∧ s.setLoraMode.frequencyEvents = s.frequencyEvents ∧
    s.setLoraMode.rateEvents = s.rateEvents ∧ s.setLoraMode.rateLog = s.rateLog :=
  State.views_congr (by simp) (by simp) (by simp) (by simp)

@[simp] theorem State.countReception_stats (s : State) :
    s.countReception.stats = { s.stats with
      msgTotal := s.stats.msgTotal + 1, msgOk := s.stats.msgOk + 1,
      okPerSf := bumpSf s.sf.toNat s.stats.okPerSf, okPerCh := bumpAt s.ch s.stats.okPerCh } := rfl

@[simp] theorem State.countReception_frame (s : State) :
    s.countReception.radioState = s.radioState ∧ s.countReception.passActive = s.passActive ∧
    s.countReception.booted = s.booted ∧ s.countReception.txPhase = s.txPhase ∧ s.countReception.sf = s.sf ∧
    s.countReception.ch = s.ch ∧ s.countReception.cfgSF = s.cfgSF ∧ s.countReception.cfgHop = s.cfgHop ∧
    s.countReception.cfgCad = s.cfgCad ∧ s.countReception.cfgCh = s.cfgCh ∧ s.countReception.cfg0 = s.cfg0 ∧
    s.countReception.pending = s.pending ∧ s.countReception.eventTime = s.eventTime ∧
    s.countReception.doneTime = s.doneTime ∧ s.countReception.clock = s.clock ∧
    s.countReception.lastRssi = s.lastRssi ∧ s.countReception.inValid = s.inValid ∧
    s.countReception.inbound = s.inbound ∧ s.countReception.outValid = s.outValid ∧
    s.countReception.outbound = s.outbound ∧ s.countReception.halted = s.halted ∧
    s.countReception.modeShadow = s.modeShadow ∧ s.countReception.faults = s.faults ∧ s.countReception.log = s.log ∧
    s.countReception.history = s.history ∧ s.countReception.par = s.par ∧ s.countReception.inbox = s.inbox ∧
    s.countReception.waiting = s.waiting ∧ s.countReception.chipAnswers = s.chipAnswers ∧
    s.countReception.draws = s.draws ∧ s.countReception.result = s.result :=
  ⟨rfl, rfl, rfl, rfl, rfl, rfl, rfl, rfl, rfl, rfl, rfl, rfl, rfl, rfl, rfl, rfl, rfl, rfl, rfl, rfl, rfl, rfl, rfl,
    rfl, rfl, rfl, rfl, rfl, rfl, rfl, rfl⟩

@[simp] theorem State.countReception_views (s : State) :
    s.countReception.regByte = s.regByte ∧ s.countReception.planAt = s.planAt ∧
    s.countReception.numChannels = s.numChannels ∧ s.countReception.scannerMode = s.scannerMode ∧
    s.countReception.wrote = s.wrote ∧ s.countReception.didRead = s.didRead ∧
    s.countReception.modeEvents = s.modeEvents ∧ s.countReception.frequencyEvents = s.frequencyEvents ∧
    s.countReception.rateEvents = s.rateEvents ∧ s.countReception.rateLog = s.rateLog ∧
    s.countReception.oracle = s.oracle ∧ s.countReception.regValue = s.regValue :=
  State.allViews_congr rfl rfl rfl rfl rfl rfl

@[simp] theorem State.countRejected_stats (s : State) :
    s.countRejected.stats = { s.stats with msgTotal := s.stats.msgTotal + 1 } := rfl

@[simp] theorem State.countRejected_frame (s : State) :
    s.countRejected.radioState = s.radioState ∧ s.countRejected.passActive = s.passActive ∧
    s.countRejected.booted = s.booted ∧ s.countRejected.txPhase = s.txPhase ∧ s.countRejected.sf = s.sf ∧
    s.countRejected.ch = s.ch ∧ s.countRejected.cfgSF = s.cfgSF ∧ s.countRejected.cfgHop = s.cfgHop ∧
    s.countRejected.cfgCad = s.cfgCad ∧ s.countRejected.cfgCh = s.cfgCh ∧ s.countRejected.cfg0 = s.cfg0 ∧
    s.countRejected.pending = s.pending ∧ s.countRejected.eventTime = s.eventTime ∧
    s.countRejected.doneTime = s.doneTime ∧ s.countRejected.clock = s.clock ∧ s.countRejected.lastRssi = s.lastRssi ∧
    s.countRejected.inValid = s.inValid ∧ s.countRejected.inbound = s.inbound ∧ s.countRejected.outValid = s.outValid ∧
    s.countRejected.outbound = s.outbound ∧ s.countRejected.halted = s.halted ∧
    s.countRejected.modeShadow = s.modeShadow ∧ s.countRejected.faults = s.faults ∧ s.countRejected.log = s.log ∧
    s.countRejected.history = s.history ∧ s.countRejected.par = s.par ∧ s.countRejected.inbox = s.inbox ∧
    s.countRejected.waiting = s.waiting ∧ s.countRejected.chipAnswers = s.chipAnswers ∧
    s.countRejected.draws = s.draws ∧ s.countRejected.result = s.result :=
  ⟨rfl, rfl, rfl, rfl, rfl, rfl, rfl, rfl, rfl, rfl, rfl, rfl, rfl, rfl, rfl, rfl, rfl, rfl, rfl, rfl, rfl, rfl, rfl,
    rfl, rfl, rfl, rfl, rfl, rfl, rfl, rfl⟩

@[simp] theorem State.countRejected_views (s : State) :
    s.countRejected.regByte = s.regByte ∧ s.countRejected.planAt = s.planAt ∧
    s.countRejected.numChannels = s.numChannels ∧ s.countRejected.scannerMode = s.scannerMode ∧
    s.countRejected.wrote = s.wrote ∧ s.countRejected.didRead = s.didRead ∧ s.countRejected.modeEvents = s.modeEvents ∧
    s.countRejected.frequencyEvents = s.frequencyEvents ∧ s.countRejected.rateEvents = s.rateEvents ∧
    s.countRejected.rateLog = s.rateLog ∧ s.countRejected.oracle = s.oracle ∧ s.countRejected.regValue = s.regValue :=
  State.allViews_congr rfl rfl rfl rfl rfl rfl

@[simp] theorem State.countSent_stats (s : State) :
    s.countSent.stats = { s.stats with
      msgSent := s.stats.msgSent + 1, sentPerCh := bumpAt s.ch s.stats.sentPerCh } := rfl

@[simp] theorem State.countSent_frame (s : State) :
    s.countSent.radioState = s.radioState ∧ s.countSent.passActive = s.passActive ∧ s.countSent.booted = s.booted ∧
    s.countSent.txPhase = s.txPhase ∧ s.countSent.sf = s.sf ∧ s.countSent.ch = s.ch ∧ s.countSent.cfgSF = s.cfgSF ∧
    s.countSent.cfgHop = s.cfgHop ∧ s.countSent.cfgCad = s.cfgCad ∧ s.countSent.cfgCh = s.cfgCh ∧
    s.countSent.cfg0 = s.cfg0 ∧ s.countSent.pending = s.pending ∧ s.countSent.eventTime = s.eventTime ∧
    s.countSent.doneTime = s.doneTime ∧ s.countSent.clock = s.clock ∧ s.countSent.lastRssi = s.lastRssi ∧
    s.countSent.inValid = s.inValid ∧ s.countSent.inbound = s.inbound ∧ s.countSent.outValid = s.outValid ∧
    s.countSent.outbound = s.outbound ∧ s.countSent.halted = s.halted ∧ s.countSent.modeShadow = s.modeShadow ∧
    s.countSent.faults = s.faults ∧ s.countSent.log = s.log ∧ s.countSent.history = s.history ∧
    s.countSent.par = s.par ∧ s.countSent.inbox = s.inbox ∧ s.countSent.waiting = s.waiting ∧
    s.countSent.chipAnswers = s.chipAnswers ∧ s.countSent.draws = s.draws ∧ s.countSent.result = s.result :=
  ⟨rfl, rfl, rfl, rfl, rfl, rfl, rfl, rfl, rfl, rfl, rfl, rfl, rfl, rfl, rfl, rfl, rfl, rfl, rfl, rfl, rfl, rfl, rfl,
    rfl, rfl, rfl, rfl, rfl, rfl, rfl, rfl⟩

@[simp] theorem State.countSent_views (s : State) :
    s.countSent.regByte = s.regByte ∧ s.countSent.planAt = s.planAt ∧ s.countSent.numChannels = s.numChannels ∧
    s.countSent.scannerMode = s.scannerMode ∧ s.countSent.wrote = s.wrote ∧ s.countSent.didRead = s.didRead ∧
    s.countSent.modeEvents = s.modeEvents ∧ s.countSent.frequencyEvents = s.frequencyEvents ∧
    s.countSent.rateEvents = s.rateEvents ∧ s.countSent.rateLog = s.rateLog ∧ s.countSent.oracle = s.oracle ∧
    s.countSent.regValue = s.regValue :=
  State.allViews_congr rfl rfl rfl rfl rfl rfl

@[simp] theorem State.logUnexpected_log (s : State) (key : BitVec 16) :
    (s.logUnexpected key).log = s.log ++ [⟨.unexpectedIrq, [keyStateCode key, keyFlagByte key], s.clock⟩] := rfl

@[simp] theorem State.logUnexpected_frame (s : State) (key : BitVec 16) :
    (s.logUnexpected key).radioState = s.radioState ∧ (s.logUnexpected key).passActive = s.passActive ∧
    (s.logUnexpected key).booted = s.booted ∧ (s.logUnexpected key).txPhase = s.txPhase ∧
    (s.logUnexpected key).sf = s.sf ∧ (s.logUnexpected key).ch = s.ch ∧ (s.logUnexpected key).cfgSF = s.cfgSF ∧
    (s.logUnexpected key).cfgHop = s.cfgHop ∧ (s.logUnexpected key).cfgCad = s.cfgCad ∧
    (s.logUnexpected key).cfgCh = s.cfgCh ∧ (s.logUnexpected key).cfg0 = s.cfg0 ∧
    (s.logUnexpected key).pending = s.pending ∧ (s.logUnexpected key).eventTime = s.eventTime ∧
    (s.logUnexpected key).doneTime = s.doneTime ∧ (s.logUnexpected key).clock = s.clock ∧
    (s.logUnexpected key).lastRssi = s.lastRssi ∧ (s.logUnexpected key).inValid = s.inValid ∧
    (s.logUnexpected key).inbound = s.inbound ∧ (s.logUnexpected key).outValid = s.outValid ∧
    (s.logUnexpected key).outbound = s.outbound ∧ (s.logUnexpected key).stats = s.stats ∧
    (s.logUnexpected key).halted = s.halted ∧ (s.logUnexpected key).modeShadow = s.modeShadow ∧
    (s.logUnexpected key).faults = s.faults ∧ (s.logUnexpected key).history = s.history ∧
    (s.logUnexpected key).par = s.par ∧ (s.logUnexpected key).inbox = s.inbox ∧
    (s.logUnexpected key).waiting = s.waiting ∧ (s.logUnexpected key).chipAnswers = s.chipAnswers ∧
    (s.logUnexpected key).draws = s.draws ∧ (s.logUnexpected key).result = s.result :=
  ⟨rfl, rfl, rfl, rfl, rfl, rfl, rfl, rfl, rfl, rfl, rfl, rfl, rfl, rfl, rfl, rfl, rfl, rfl, rfl, rfl, rfl, rfl, rfl,
    rfl, rfl, rfl, rfl, rfl, rfl, rfl, rfl⟩

@[simp] theorem State.logUnexpected_views (s : State) (key : BitVec 16) :
    (s.logUnexpected key).regByte = s.regByte ∧ (s.logUnexpected key).planAt = s.planAt ∧
    (s.logUnexpected key).numChannels = s.numChannels ∧ (s.logUnexpected key).scannerMode = s.scannerMode ∧
    (s.logUnexpected key).wrote = s.wrote ∧ (s.logUnexpected key).didRead = s.didRead ∧
    (s.logUnexpected key).modeEvents = s.modeEvents ∧ (s.logUnexpected key).frequencyEvents = s.frequencyEvents ∧
    (s.logUnexpected key).rateEvents = s.rateEvents ∧ (s.logUnexpected key).rateLog = s.rateLog ∧
    (s.logUnexpected key).oracle = s.oracle ∧ (s.logUnexpected key).regValue = s.regValue :=
  State.allViews_congr rfl rfl rfl rfl rfl rfl

end Sys2Proof.Machine
end

