-- ==== Sys2Proof/Laws/Operations.lean ====
section
/-! SUPPORT. What each shared operation can do, said once: the accessor, the register writes, the configuration operations
and the arming sequences. A later proof cites these and does not unfold the operation. -/

namespace Sys2Proof.Machine

open Sys2Proof

/-! ## The chip's answers (rule R66) -/

/-- Either a queued answer serves a read, or none does. -/
theorem takeAnswer_cases (a : Byte) (l : List (Byte × Byte)) :
    (∃ pre v post, l = pre ++ (a, v) :: post ∧ (∀ p ∈ pre, p.1 ≠ a) ∧ takeAnswer a l = some (v, pre ++ post)) ∨
      ((∀ p ∈ l, p.1 ≠ a) ∧ takeAnswer a l = none) := by
  induction l with
  | nil => exact .inr ⟨by simp, rfl⟩
  | cons p l ih =>
    obtain ⟨b, v⟩ := p
    by_cases hb : b = a
    · exact .inl ⟨[], v, l, by simp [hb], by simp, by simp [takeAnswer, hb]⟩
    · rcases ih with ⟨pre, w, post, rfl, hp, ht⟩ | ⟨hp, ht⟩
      · refine .inl ⟨(b, v) :: pre, w, post, rfl, ?_, by simp [takeAnswer, hb, ht]⟩
        simpa [hb] using hp
      · refine .inr ⟨?_, by simp [takeAnswer, hb, ht]⟩
        simpa [hb] using hp

/-- A read that the first queued answer for its address serves. -/
theorem takeAnswer_queued (a v : Byte) (pre post : List (Byte × Byte)) (h : ∀ p ∈ pre, p.1 ≠ a) :
    takeAnswer a (pre ++ (a, v) :: post) = some (v, pre ++ post) := by
  induction pre with
  | nil => simp [takeAnswer]
  | cons p pre ih =>
    obtain ⟨b, w⟩ := p
    simp only [List.mem_cons, forall_eq_or_imp] at h
    simp [takeAnswer, h.1, ih h.2]

/-- A read that no queued answer serves. -/
theorem takeAnswer_free (a : Byte) (l : List (Byte × Byte)) (h : ∀ p ∈ l, p.1 ≠ a) : takeAnswer a l = none := by
  induction l with
  | nil => rfl
  | cons p l ih =>
    obtain ⟨b, w⟩ := p
    simp only [List.mem_cons, forall_eq_or_imp] at h
    simp [takeAnswer, h.1, ih h.2]

/-! ## Times of W bits and indexes (rules R8, R9, R25) -/

theorem truncTime_lt (par : Params) (t : Nat) : par.truncTime t < 2 ^ par.timeBits := Nat.mod_lt _ (Nat.two_pow_pos _)

/-- A difference of times is the integer difference modulo `2^W`. -/
theorem subTime_eq (par : Params) (a b : Nat) : (par.subTime a b : Int) = ((a : Int) - b) % 2 ^ par.timeBits := by
  have hb := Nat.mod_lt b (Nat.two_pow_pos par.timeBits)
  unfold Params.subTime
  push_cast [hb.le]
  rw [Int.emod_eq_emod_iff_emod_sub_eq_zero]
  apply Int.emod_eq_zero_of_dvd
  refine ⟨1 + (b : Int) / 2 ^ par.timeBits, ?_⟩
  linarith [Int.emod_add_mul_ediv (b : Int) (2 ^ par.timeBits)]

/-- A signed difference of times is the balanced remainder of the integer difference. -/
theorem signedTime_subTime (par : Params) (a b : Nat) :
    par.signedTime (par.subTime a b) = Int.bmod ((a : Int) - b) (2 ^ par.timeBits) := by
  obtain ⟨k, hk⟩ : ∃ k, par.timeBits = k + 1 := ⟨par.timeBits - 1, by have := par.timeBitsPos; omega⟩
  have hd := subTime_eq par a b
  simp only [Params.signedTime, Int.bmod, hk, Nat.add_sub_cancel] at hd ⊢
  push_cast
  rw [← hd]
  have h2 : (2 : Int) ^ (k + 1) = 2 * 2 ^ k := by ring
  have h3 : ((2 : Int) ^ (k + 1) + 1) / 2 = 2 ^ k := by rw [h2]; omega
  rw [h3]
  by_cases h : par.subTime a b < 2 ^ k
  · have h' : (par.subTime a b : Int) < 2 ^ k := by exact_mod_cast h
    simp [h, h']
  · have h' : ¬ (par.subTime a b : Int) < 2 ^ k := by exact_mod_cast h
    simp [h, h']

/-- The time that a wait has left, as the claims read it (rule R280). -/
theorem State.remaining_eq (s : State) (target : Nat) (sf : Byte) : s.remaining target sf = s.timeLeft target sf :=
  signedTime_subTime s.par _ _

/-- The index's width covers every index of the plan (rule R25). -/
theorem le_two_pow_indexBits (n : Nat) : n ≤ 2 ^ indexBits n := by
  unfold indexBits
  split
  · omega
  · have := Nat.lt_log2_self (n := n - 1)
    omega

/-- The index's width is `ceil(log2 N)`, and at least 1 (rule R25). -/
theorem indexBits_eq (n : Nat) : indexBits n = max 1 (Nat.clog 2 n) := by
  unfold indexBits
  split
  · rename_i h
    have : Nat.clog 2 n ≤ 1 := by
      rw [Nat.clog_le_iff_le_pow (by decide)]
      omega
    omega
  · rename_i h
    have h1 : Nat.log2 (n - 1) + 1 = Nat.clog 2 n := by
      apply le_antisymm
      · rw [Nat.succ_le_iff, Nat.lt_clog_iff_pow_lt (by decide)]
        have := Nat.log2_self_le (n := n - 1) (by omega)
        omega
      · rw [Nat.clog_le_iff_le_pow (by decide)]
        have := Nat.lt_log2_self (n := n - 1)
        omega
    omega

theorem cutIndex_lt (n i : Nat) : cutIndex n i < 2 ^ indexBits n := Nat.mod_lt _ (Nat.two_pow_pos _)

/-- An index of the plan is not cut. -/
theorem cutIndex_of_lt {n i : Nat} (h : i < n) : cutIndex n i = i :=
  Nat.mod_eq_of_lt (h.trans_le (le_two_pow_indexBits n))

/-! ## The waiting list (log entry 10) -/

/-- The operation that is taken from the waiting list was in it and passes the test, and the rest was in it. -/
theorem takeFirst_mem {p : Instr → Bool} {l : List Instr} {i : Instr} {r : List Instr}
    (h : takeFirst p l = some (i, r)) : i ∈ l ∧ p i = true ∧ ∀ j ∈ r, j ∈ l := by
  induction l generalizing i r with
  | nil => simp [takeFirst] at h
  | cons x l ih =>
    simp only [takeFirst] at h
    split at h
    · rename_i hp
      obtain ⟨rfl, rfl⟩ : x = i ∧ l = r := by simpa using h
      exact ⟨.head _, hp, fun j hj => .tail _ hj⟩
    · rcases hq : takeFirst p l with _ | ⟨j, q⟩
      · simp [hq] at h
      · obtain ⟨rfl, rfl⟩ : j = i ∧ x :: q = r := by simpa [hq] using h
        obtain ⟨hi, hp, hr⟩ := ih hq
        refine ⟨.tail _ hi, hp, fun k hk => ?_⟩
        rcases List.mem_cons.mp hk with rfl | hk
        · exact .head _
        · exact .tail _ (hr k hk)

/-! ## The accessor (rules R130 to R132) -/

/-- A chip register's address byte is within 7 bits, so an access to it cannot fault (rules R90, R97). -/
theorem State.regByte_toNat_lt (s : State) (r : Reg) : (s.regByte r).toNat < 0x80 := by
  have h := (regAddr s.par.regs r).isLt
  simp only [State.regByte, BitVec.toNat_setWidth]
  omega

theorem spiRead_of_lt (a : Byte) (s : State) (h : a.toNat < 0x80) : spiRead a s = .ok (s.oracle a, s.busRead a) := by
  have h' : ¬ 0x7F < a.toNat := by omega
  simp [spiRead, h']

theorem spiWrite_of_lt (a v : Byte) (s : State) (h : a.toNat < 0x80) : spiWrite a v s = .ok (s.busWrite a v) := by
  have h' : ¬ 0x7F < a.toNat := by omega
  simp [spiWrite, h']

theorem spiBurst_of_lt (a : Byte) (data : List Byte) (s : State) (h : a.toNat < 0x80) (hd : data ≠ []) :
    spiBurst a data s = .ok (s.busBurst a data) := by
  have h' : ¬ 0x7F < a.toNat := by omega
  cases data with
  | nil => exact absurd rfl hd
  | cons b bs => simp [spiBurst, h']

/-- A read, a write and a burst of a chip register succeed (rules R69, R346). -/
theorem spiRead_register (r : Reg) (s : State) : spiRead (s.regByte r) s = .ok (s.regValue r, s.readReg r) :=
  spiRead_of_lt _ s (s.regByte_toNat_lt r)

theorem spiWrite_register (r : Reg) (v : Byte) (s : State) : spiWrite (s.regByte r) v s = .ok (s.writeReg r v) :=
  spiWrite_of_lt _ v s (s.regByte_toNat_lt r)

theorem spiBurst_register (r : Reg) (data : List Byte) (s : State) (hd : data ≠ []) :
    spiBurst (s.regByte r) data s = .ok (s.busBurst (s.regByte r) data) :=
  spiBurst_of_lt _ data s (s.regByte_toNat_lt r) hd

/-! ## The end of a step (rule R346) -/

@[simp] theorem State.settle_ok (s t : State) : s.settle (.ok t) = t := rfl

@[simp] theorem State.settle_error (s : State) (f : FaultName) : s.settle (.error f) = s.raiseFault f := rfl

@[simp] theorem State.runToEnd_ok (s t : State) : s.runToEnd (.ok t) = t.endPass := rfl

@[simp] theorem State.runToEnd_error (s : State) (f : FaultName) : s.runToEnd (.error f) = s.raiseFault f := rfl

/-! ## Configuration (rules R140 to R147) -/

/-- The state after SET_OPMODE(STANDBY) or SET_OPMODE(SLEEP) meets the precondition of rule R147. -/
theorem State.standbyHeld_setOpMode (s : State) (m : Mode) :
    (s.setOpMode m).standbyHeld = (m == .sleep || m == .standby) := by
  cases m <;> rfl

/-- A frequency below 1 024 000 000 Hz has a word of 24 bits, and no other has (rules R140, R302). -/
theorem frequencyWord_lt_iff (hz : BitVec 32) : frequencyWord hz < 2 ^ 24 ↔ hz.toNat < 1024000000 := by
  unfold frequencyWord
  omega

/-- Everything that SET_FREQUENCY can do (rule R140). -/
theorem setFrequency_eq (hz : BitVec 32) (s : State) :
    setFrequency hz s =
      if s.standbyHeld then
        if hz.toNat < 1024000000 then .ok (s.writeFrequencyWord (frequencyWord hz)) else .error .freqRange
      else .error .configActive := by
  have h := frequencyWord_lt_iff hz
  by_cases hs : s.standbyHeld <;> by_cases hf : hz.toNat < 1024000000
  · have h' : ¬ 2 ^ 24 ≤ frequencyWord hz := by omega
    simpa [setFrequency, checkStandby, hs, hf, bind, Except.bind] using h'
  · have h' : 2 ^ 24 ≤ frequencyWord hz := by omega
    simpa [setFrequency, checkStandby, hs, hf, bind, Except.bind] using h'
  · simp [setFrequency, checkStandby, hs, bind, Except.bind]
  · simp [setFrequency, checkStandby, hs, bind, Except.bind]

/-- Everything that SET_RATE can do (rules R142, R143). -/
theorem setRate_eq (sf : Byte) (crc : Bool) (s : State) :
    setRate sf crc s =
      if sfInRange sf.toNat then
        if s.standbyHeld then .ok (s.writeRate sf crc) else .error .configActive
      else .ok (s.logEntry .sfRange [sf.toNat]) := by
  by_cases hr : sfInRange sf.toNat <;> by_cases hs : s.standbyHeld <;>
    simp [setRate, checkStandby, hr, hs, bind, Except.bind]

/-- Everything that SET_POWER can do (rule R145). -/
theorem setPower_eq (p : Byte) (s : State) :
    setPower p s = if s.standbyHeld then .ok (s.writeReg .paConfig (paValue s.par p)) else .error .configActive := by
  by_cases hs : s.standbyHeld <;> simp [setPower, checkStandby, hs, bind, Except.bind]

/-- SET_FREQUENCY where it succeeds, as its transactions (rules R62, R140). -/
theorem setFrequency_ok (hz : BitVec 32) (s : State) (hs : s.standbyHeld = true) (hf : hz.toNat < 1024000000) :
    setFrequency hz s = .ok (s.appended (s.frequencyEvents hz) []) := by
  rw [setFrequency_eq, if_pos hs, if_pos hf]
  apply congrArg Except.ok
  apply State.ext <;> simp
  simp [State.frequencyEvents, frequencyWord, frequencyMsb, frequencyMid, frequencyLsb]

/-- SET_RATE where it does not fault, as its transactions and its log entry (rules R142, R143). -/
theorem setRate_ok (sf : Byte) (crc : Bool) (s : State) (hs : s.standbyHeld = true) :
    setRate sf crc s = .ok (s.appended (s.rateEvents sf crc) (s.rateLog sf)) := by
  rw [setRate_eq]
  by_cases hr : 7 ≤ sf.toNat ∧ sf.toNat ≤ 12
  · have hr' : sfInRange sf.toNat = true := by simpa [sfInRange] using hr
    rw [if_pos hr', if_pos hs]
    apply congrArg Except.ok
    apply State.ext <;> simp [State.rateEvents, State.rateLog, hr]
  · have hr' : ¬ sfInRange sf.toNat = true := by simpa [sfInRange] using hr
    rw [if_neg hr']
    apply congrArg Except.ok
    apply State.ext <;> simp [State.rateEvents, State.rateLog, hr]

/-- SET_POWER where it succeeds (rule R145). -/
theorem setPower_ok (p : Byte) (s : State) (hs : s.standbyHeld = true) :
    setPower p s = .ok (s.andWrote .paConfig (paValue s.par p)) := by
  rw [setPower_eq, if_pos hs]
  rfl

/-- A plan entry's frequency can always be set (rule R31). -/
theorem PlanEntry.uplinkFrequencyHz_lt (e : PlanEntry) : e.uplinkFrequencyHz.toNat < 1024000000 :=
  (frequencyWord_lt_iff _).mp e.wordFits

/-- A plan entry's spreading factors are in 7..12 (rule R31). -/
theorem PlanEntry.minSF_legal (e : PlanEntry) : 7 ≤ e.minSF.toNat ∧ e.minSF.toNat ≤ 12 :=
  ⟨e.sfOrdered.1, e.sfOrdered.2.1.trans e.sfOrdered.2.2⟩

/-- The plan has an entry (rule R31). -/
theorem State.numChannels_pos (s : State) : 0 < s.numChannels := s.par.plan.nonempty

/-! ## The records of the slots -/

/-- A payload buffer keeps its length when a part that fits is written to its front (rules R35, R36). -/
theorem writeFront_length (bytes old : List Byte) (h : bytes.length ≤ old.length) :
    (writeFront bytes old).length = old.length := by
  simp [writeFront]
  omega

@[simp] theorem bumpAt_length (i : Nat) (l : List Counter) : (bumpAt i l).length = l.length := by
  simp [bumpAt]

@[simp] theorem bumpSf_length (sf : Nat) (l : List Counter) : (bumpSf sf l).length = l.length := by
  unfold bumpSf
  split <;> simp

/-- The FIFO drain reads the bytes it is asked for (rule R64). -/
@[simp] theorem State.drainBytes_length (s : State) (n : Nat) : (s.drainBytes n).length = n := by
  induction n generalizing s with
  | zero => rfl
  | succ n ih => simp [State.drainBytes, ih]

/-- The FIFO drain moves the chip oracle and the event history, and nothing else (rule R64). -/
theorem State.drain_eq (s : State) (n : Nat) :
    s.drain n = { s with
      history := s.history ++ (s.drainBytes n).map (s.didRead .fifo)
      chipAnswers := (s.drain n).chipAnswers
      draws := (s.drain n).draws } := by
  induction n generalizing s with
  | zero => simp [State.drain, State.drainBytes]
  | succ n ih =>
    rw [show s.drain (n + 1) = (s.readReg .fifo).drain n from rfl, ih (s.readReg .fifo)]
    simp [State.drainBytes]

/-! ## Arming (rules R200 to R207) -/

/-- What the next read returns after SET_OPMODE: the read that it makes moves the chip oracle (rules R66, R150). -/
@[simp] theorem State.regValue_setOpMode (s : State) (m : Mode) : (s.setOpMode m).regValue = (s.readReg .opMode).regValue :=
  (State.regValue_congr rfl rfl rfl).2

@[simp] theorem State.regValue_captureRssi (s : State) : s.captureRssi.regValue = (s.readReg .rssiValue).regValue :=
  (State.regValue_congr rfl rfl rfl).2

/-- Reads that start from one chip oracle return the same. -/
theorem State.regValue_readReg_congr {s t : State} (r : Reg) (hp : t.par = s.par) (ha : t.chipAnswers = s.chipAnswers)
    (hd : t.draws = s.draws) : (t.readReg r).regValue = (s.readReg r).regValue := by
  refine (State.regValue_congr (by simpa using hp) ?_ ?_).2 <;> simp [State.regByte, hp, ha, hd]

/-- The common front of the arming sequences never fails: a plan frequency fits, and STANDBY is held (rules R31, R200). -/
theorem armFront_eq (s : State) :
    armFront s = .ok (((((s.setOpMode .standby).clearIrq 0xFF).appended
      (s.frequencyEvents (s.planAt s.ch).uplinkFrequencyHz) []).appended
      (s.rateEvents (s.sf.setWidth 8) s.par.rxCrcFlag) (s.rateLog (s.sf.setWidth 8))).setIq false) := by
  unfold armFront
  rw [setFrequency_ok _ _ rfl (PlanEntry.uplinkFrequencyHz_lt _)]
  simp only [bind, Except.bind]
  rw [setRate_ok _ _ _ rfl]
  simp

/-- ARM_SCANNER never faults (rule R200). -/
theorem armScanner_eq (s : State) : armScanner s = .ok s.scannerArmed := by
  unfold armScanner
  rw [armFront_eq]
  apply congrArg Except.ok
  apply State.ext <;> simp [State.armEvents, State.frontEvents, State.opMode1, State.opMode2]

/-- ARM_RX_CONT never faults (rule R202). -/
theorem armRxCont_eq (s : State) : armRxCont s = .ok s.receiverArmed := by
  unfold armRxCont
  rw [armFront_eq]
  apply congrArg Except.ok
  apply State.ext <;> simp [State.armEvents, State.frontEvents, State.opMode1, State.opMode2]
  rw [State.regValue_readReg_congr (s := s) (t := s.setSf s.cfgSF) .opMode rfl rfl rfl]

/-- ARM_LISTEN never faults (rule R203). -/
theorem armListen_eq (s : State) : armListen s = .ok s.listening := by
  unfold armListen State.listening State.scannerMode
  by_cases h : (s.cfgHop || s.cfgCad) = true
  · rw [if_pos h, if_pos h, armScanner_eq]
    rfl
  · rw [if_neg h, if_neg h, armRxCont_eq]
    rfl

/-- FORCE_SCAN never faults (rule R204). -/
theorem forceScan_eq (s : State) : forceScan s = .ok ((s.setSf (s.planAt s.ch).minSF).scannerArmed.setState 1) := by
  unfold forceScan
  rw [armScanner_eq]
  rfl

/-- RECOVER never faults (rule R206). -/
theorem recover_eq (s : State) :
    recover s = .ok ((s.andWrote .irqFlags 0xFF).andWrote .irqFlagsMask 0x00).listening :=
  armListen_eq _

/-- ARM_RX_SINGLE in closed form (rule R201). -/
theorem armRxSingle_eq (s : State) : s.armRxSingle = s.singleArmed := by
  apply State.ext <;> simp [State.armRxSingle, State.singleArmed, irqMask, dioValue]
  rw [State.regValue_readReg_congr (s := s) (t := s.setDioMap .rx) .rssiValue rfl rfl rfl]

/-- RESTART in closed form (rule R207). -/
theorem restart_eq (s : State) : s.restart = s.restarted := by
  apply State.ext <;> simp [State.restart, stInit, State.opMode1, State.opMode2]

/-- KEY_TX does not fault on a request that SUBMIT_TX accepted (rules R205, R302). -/
theorem keyTx_eq (s : State) (h : s.keyable) : keyTx s = .ok s.keyed := by
  obtain ⟨hf, h1, h2⟩ := h
  have hd : s.outbound.payload.take s.outbound.len.toNat ≠ [] := by
    intro h0
    have := congrArg List.length h0
    simp only [List.length_take, List.length_nil] at this
    omega
  unfold keyTx
  rw [setFrequency_ok _ _ rfl hf]
  simp only [bind, Except.bind]
  rw [setRate_ok _ _ _ rfl]
  simp only []
  rw [setPower_ok _ _ rfl]
  simp only []
  rw [spiBurst_of_lt _ _ _ (s.regByte_toNat_lt .fifo) hd]
  apply congrArg Except.ok
  apply State.ext <;> simp [State.keyEvents, dioValue, State.opMode1, State.opMode2]

end Sys2Proof.Machine
end

