-- ==== Sys2Proof/Laws/PerInstr.lean ====
section
/-! SUPPORT. Statements for all operations, made per operation: one lemma per constructor of Instr. -/

namespace Sys2Proof.Laws.EngineSide

open Sys2Proof Sys2Proof.Machine

/-- An operation is the FSM engine's exactly where its frame belongs to the engine's side: the bus, the codes 0x20 to 0x60 and
the evaluation keys (rules R100, R103, R135). -/
def Statement (i : Instr) : Prop := (encode i).internal = engineOnly i

theorem spiRead (a : Byte) : Statement (.spiRead a) := rfl

theorem spiWrite (a : Byte) (v : Byte) : Statement (.spiWrite a v) := rfl

theorem spiBurstWrite (a : Byte) (data : List Byte) : Statement (.spiBurstWrite a data) := rfl

theorem setFrequency (hz : BitVec 32) : Statement (.setFrequency hz) := rfl

theorem setRate (crc : Bool) (sf : Byte) : Statement (.setRate crc sf) := by
  simp only [Statement, encode, Frame.internal, opCode_opWord]
  rfl

theorem setPower (p : Byte) : Statement (.setPower p) := rfl

theorem setOpmode (m : Mode) : Statement (.setOpmode m) := by
  simp only [Statement, encode, Frame.internal, opCode_opWord]
  rfl

theorem setIq (invert : Bool) : Statement (.setIq invert) := by
  simp only [Statement, encode, Frame.internal, opCode_opWord]
  rfl

theorem clearIrq (bits : Byte) : Statement (.clearIrq bits) := by
  simp only [Statement, encode, Frame.internal, opCode_opWord]
  rfl

theorem setIrqMask (mask : Byte) : Statement (.setIrqMask mask) := by
  simp only [Statement, encode, Frame.internal, opCode_opWord]
  rfl

theorem setDioMap (k : DioKind) : Statement (.setDioMap k) := by
  simp only [Statement, encode, Frame.internal, opCode_opWord]
  rfl

theorem checkChipId : Statement .checkChipId := rfl

theorem advanceChannel : Statement .advanceChannel := rfl

theorem evalPass : Statement .evalPass := rfl

theorem armScanner : Statement .armScanner := rfl

theorem armRxSingle : Statement .armRxSingle := rfl

theorem armRxCont : Statement .armRxCont := rfl

theorem armListen : Statement .armListen := rfl

theorem keyTx : Statement .keyTx := rfl

theorem recover : Statement .recover := rfl

theorem restart : Statement .restart := rfl

theorem forceScan : Statement .forceScan := rfl

theorem bringup : Statement .bringup := rfl

theorem waitUntil (target : Nat) (sf : Byte) : Statement (.waitUntil target sf) := rfl

theorem capturePacket : Statement .capturePacket := rfl

theorem irqEdge (line : BitVec 2) : Statement (.irqEdge line) := by
  simp only [Statement, encode, Frame.internal, opCode_opWord]
  rfl

theorem submitTx (req : OutboundRequest) : Statement (.submitTx req) := rfl

theorem takePacket : Statement .takePacket := rfl

theorem readStats : Statement .readStats := rfl

theorem configure (cfg : CfgRecord) : Statement (.configure cfg) := rfl

theorem readState : Statement .readState := rfl

theorem reset (cfg0 : CfgRecord) : Statement (.reset cfg0) := rfl

theorem clockAdvance (d : Nat) : Statement (.clockAdvance d) := rfl

theorem evInit (key : BitVec 16) : Statement (.evInit key) := rfl

theorem evScanDetect (key : BitVec 16) : Statement (.evScanDetect key) := rfl

theorem evScanPromote (key : BitVec 16) : Statement (.evScanPromote key) := rfl

theorem evScanDoneHop (key : BitVec 16) : Statement (.evScanDoneHop key) := rfl

theorem evScanStay (key : BitVec 16) : Statement (.evScanStay key) := rfl

theorem evScanTxreq (key : BitVec 16) : Statement (.evScanTxreq key) := rfl

theorem evScanSofthop (key : BitVec 16) : Statement (.evScanSofthop key) := rfl

theorem evScanIdle (key : BitVec 16) : Statement (.evScanIdle key) := rfl

theorem evScanUnexpected (key : BitVec 16) : Statement (.evScanUnexpected key) := rfl

theorem evCadDetect (key : BitVec 16) : Statement (.evCadDetect key) := rfl

theorem evCadNextSf (key : BitVec 16) : Statement (.evCadNextSf key) := rfl

theorem evCadExhausted (key : BitVec 16) : Statement (.evCadExhausted key) := rfl

theorem evCadTxreq (key : BitVec 16) : Statement (.evCadTxreq key) := rfl

theorem evCadSofthop (key : BitVec 16) : Statement (.evCadSofthop key) := rfl

theorem evCadIdle (key : BitVec 16) : Statement (.evCadIdle key) := rfl

theorem evCadUnexpected (key : BitVec 16) : Statement (.evCadUnexpected key) := rfl

theorem evRxCrcerr (key : BitVec 16) : Statement (.evRxCrcerr key) := rfl

theorem evRxHdrinv (key : BitVec 16) : Statement (.evRxHdrinv key) := rfl

theorem evRxDone (key : BitVec 16) : Statement (.evRxDone key) := rfl

theorem evRxTimeoutHop (key : BitVec 16) : Statement (.evRxTimeoutHop key) := rfl

theorem evRxTimeout (key : BitVec 16) : Statement (.evRxTimeout key) := rfl

theorem evRxHdrseen (key : BitVec 16) : Statement (.evRxHdrseen key) := rfl

theorem evRxTxreq (key : BitVec 16) : Statement (.evRxTxreq key) := rfl

theorem evRxSofttmo (key : BitVec 16) : Statement (.evRxSofttmo key) := rfl

theorem evRxIdle (key : BitVec 16) : Statement (.evRxIdle key) := rfl

theorem evRxUnexpected (key : BitVec 16) : Statement (.evRxUnexpected key) := rfl

theorem evTxRun (key : BitVec 16) : Statement (.evTxRun key) := rfl

theorem evTxNoreq (key : BitVec 16) : Statement (.evTxNoreq key) := rfl

theorem evTxdDone (key : BitVec 16) : Statement (.evTxdDone key) := rfl

theorem evTxdTimeout (key : BitVec 16) : Statement (.evTxdTimeout key) := rfl

theorem evTxdWait (key : BitVec 16) : Statement (.evTxdWait key) := rfl

theorem evTxdUnexpected (key : BitVec 16) : Statement (.evTxdUnexpected key) := rfl

theorem evDefault (key : BitVec 16) : Statement (.evDefault key) := rfl

end Sys2Proof.Laws.EngineSide
end

