-- ==== Sys2Proof/Laws/Rows.lean ====
section
/-! SUPPORT. What capture, transmission, the 33 rows of the state machine and bring-up can do, said once: each in closed form.
A later proof cites these and does not unfold the row. -/

namespace Sys2Proof.Machine

open Sys2Proof

/-! ## Packet capture (rules R64, R310 to R316) -/

/-- The FIFO drain depends on the parameters and the chip oracle alone. -/
theorem State.drain_congr {s t : State} (hp : t.par = s.par) (ha : t.chipAnswers = s.chipAnswers)
    (hd : t.draws = s.draws) (n : Nat) :
    t.drainBytes n = s.drainBytes n ∧ (t.drain n).chipAnswers = (s.drain n).chipAnswers ∧
      (t.drain n).draws = (s.drain n).draws := by
  induction n generalizing s t with
  | zero => exact ⟨rfl, ha, hd⟩
  | succ n ih =>
    have hb : t.regByte .fifo = s.regByte .fifo := by simp [State.regByte, hp]
    have h := ih (s := s.readReg .fifo) (t := t.readReg .fifo) (by simpa using hp) (by simp [hb, ha])
      (by simp [hb, ha, hd])
    refine ⟨?_, h.2.1, h.2.2⟩
    simp only [State.drainBytes, h.1, (State.regValue_congr hp ha hd).2]

/-- The log entry of an oversize count, or none (rule R315). -/
theorem State.logOversize_eq (s : State) (nb : Byte) :
    s.logOversize nb =
      s.appended [] (if 128 < nb.toNat then [⟨.payloadOversize, [nb.toNat], s.clock⟩] else []) := by
  unfold State.logOversize Config.maxRxPayload
  split <;> apply State.ext <;> simp

/-- CAPTURE_PACKET in closed form (rule R310). -/
theorem capturePacket_eq (s : State) : s.capturePacket = s.captured := by
  unfold State.capturePacket State.captured
  simp only [State.logOversize_eq]
  have hv : ∀ (r : State) (e : List LogEntry), (r.appended [] e).regValue = r.regValue :=
    fun _ _ => (State.regValue_congr rfl rfl rfl).2
  have hc := fun (r : State) (e : List LogEntry) (v : Byte) (n : Nat) =>
    State.drain_congr (s := r.readReg .fifoRxCurrentAddr)
      (t := ((r.appended [] e).readReg .fifoRxCurrentAddr).writeReg .fifoAddrPtr v) rfl rfl rfl n
  simp only [hv]
  rw [State.drain_eq]
  apply State.ext <;>
    simp [hc, cappedCount, Config.maxRxPayload, packetRssi, rssiOffset, writeFront, bumpSf, bumpAt, sfInRange]
  all_goals cases s.par.variant <;> rfl

/-! ## Transmission (rules R260, R280 to R282) -/

/-- The keying of a request that SUBMIT_TX accepted (rule R260). -/
theorem txKey_eq (s : State) (h : s.keyable) : txKey s = .ok s.transmitting := by
  unfold txKey
  rw [keyTx_eq s h]
  rfl

/-- A request whose window was missed is discarded (rule R281). -/
theorem txDrop_eq (s : State) : txDrop s = .ok s.consume.listening := armListen_eq _

/-- A transmission, for a request that SUBMIT_TX accepted (rule R260). -/
theorem txRun_eq (s : State) (h : s.keyable) : txRun s = .ok s.transmission := by
  unfold txRun State.transmission
  simp only [show s.txPrepare = s.txListening from rfl, State.waitUntil, State.waitResult, State.remaining_eq,
    show ∀ a b, s.txListening.timeLeft a b = s.timeLeft a b from fun _ _ => rfl,
    show s.txListening.clock = s.clock from rfl, show s.txListening.par = s.par from rfl,
    show adjustedTarget s.par s.outbound.target s.outbound.sf = s.targetOf s.outbound.target s.outbound.sf from rfl]
  by_cases h1 : 0 < s.timeLeft s.outbound.target s.outbound.sf
  · have h2 : ¬ s.timeLeft s.outbound.target s.outbound.sf < 0 := by omega
    have h3 : ¬ s.timeLeft s.outbound.target s.outbound.sf = 0 := by omega
    simp only [h1, h2, h3, if_true, if_false]
    rfl
  · by_cases h3 : s.timeLeft s.outbound.target s.outbound.sf = 0
    · simp only [h3, if_true, lt_irrefl, if_false]
      exact txKey_eq _ h
    · have h2 : s.timeLeft s.outbound.target s.outbound.sf < 0 := by omega
      have e : s.txListening.logEntry .txMissed [s.par.truncTime s.outbound.target,
            s.targetOf s.outbound.target s.outbound.sf, s.clock] =
          s.txListening.appended [] [s.missedEntry s.outbound.target s.outbound.sf] := by
        apply State.ext <;> simp [State.missedEntry, State.txListening, Params.truncTime]
      simp only [h1, h2, h3, if_true, if_false, e]
      split
      · exact txDrop_eq _
      · exact txKey_eq _ h

/-! ## The rows (rules R231 to R268) -/

/-- ARM_SCANNER and a radio state never fail. -/
theorem armScannerInto_eq (st : BitVec 3) (s : State) : armScannerInto st s = .ok (s.scannerArmed.setState st) := by
  unfold armScannerInto
  rw [armScanner_eq]
  rfl

/-- The entry E6 holds the key's state and its flag byte (rule R239). -/
theorem State.logUnexpected_eq (s : State) (k : BitVec 16) :
    s.logUnexpected k = s.logged .unexpectedIrq [k.toNat / 2 ^ 13, k.toNat % 2 ^ 8] := by
  have h1 : keyStateCode k = k.toNat / 2 ^ 13 := by
    have := k.isLt
    simp only [keyStateCode, BitVec.extractLsb'_toNat, Nat.shiftRight_eq_div_pow]
    omega
  have h2 : keyFlagByte k = k.toNat % 2 ^ 8 := by simp [keyFlagByte, BitVec.extractLsb'_toNat]
  simp only [State.logUnexpected, h1, h2]
  rfl

/-- An unexpected key never fails (rule R239). -/
theorem unexpected_eq (s : State) (k : BitVec 16) : unexpected k s = .ok (s.recovered k) := by
  rw [unexpected, recover_eq, State.logUnexpected_eq]
  rfl

/-- A rejected reception never fails (rules R247, R248). -/
theorem rejectReception_eq (code : LogCode) (s : State) :
    rejectReception code s = .ok (((s.logEntry code [s.ch, s.sf.toNat]).countRejected.clearIrq 0xFF).listening) :=
  armListen_eq _

/-- A row that transmits: it needs a request that can be keyed. -/
def rowTransmits : Row → Bool
  | .scanTxreq | .cadTxreq | .rxTxreq | .txRun => true
  | _ => false

/-- The state that a row leaves, before the end of its pass. -/
def rowOutcome (row : Row) (k : BitVec 16) (s : State) : State :=
  match row with
  | .init => ((s.andWrote .irqFlags 0xFF).andWrote .irqFlagsMask 0x00).scanning
  | .scanDetect | .cadDetect => s.singleArmed.setState 3
  | .scanPromote => s.scannerArmed.setState 2
  | .scanDoneHop | .scanSofthop => s.hopped.scannerArmed
  | .scanStay => s.scannerArmed
  | .scanTxreq | .cadTxreq | .rxTxreq => (s.setState 4).transmission
  | .scanIdle | .cadIdle | .rxHdrseen | .rxIdle | .txdWait => s
  | .scanUnexpected | .cadUnexpected | .rxUnexpected | .txNoreq | .default => s.recovered k
  | .cadNextSf => (s.setSf (s.sf + 1)).scannerArmed
  | .cadExhausted => s.scanning
  | .cadSofthop => s.hopped.scannerArmed.setState 1
  | .rxCrcerr => ((s.logEntry .crcError [s.ch, s.sf.toNat]).countRejected.clearIrq 0xFF).listening
  | .rxHdrinv => ((s.logEntry .headerInvalid [s.ch, s.sf.toNat]).countRejected.clearIrq 0xFF).listening
  | .rxDone => (s.captured.andWrote .irqFlags 0xFF).listening
  | .rxTimeoutHop | .rxSofttmo => s.hopped.listening
  | .rxTimeout => (s.andWrote .irqFlags 0xFF).listening
  | .txRun => s.transmission
  | .txdDone => (s.countSent.clearIrq 0xFF).listening
  | .txdTimeout => (s.logged .txdoneMissing [s.clock - s.eventTime]).restarted
  | .txdUnexpected =>
    ((s.logged .unexpectedIrq [k.toNat / 2 ^ 13, k.toNat % 2 ^ 8]).andWrote .irqFlags 0xFF).scanning

/-- Everything that a row can do, for a row that transmits with a request that SUBMIT_TX accepted: it never fails. -/
theorem runRow_eq (row : Row) (k : BitVec 16) (s : State) (h : rowTransmits row = true → s.keyable) :
    runRow row k s = .ok (rowOutcome row k s) := by
  cases row
  case scanTxreq => exact txRun_eq (s.setState stTx) (h rfl)
  case cadTxreq => exact txRun_eq (s.setState stTx) (h rfl)
  case rxTxreq => exact txRun_eq (s.setState stTx) (h rfl)
  case txRun => exact txRun_eq s (h rfl)
  case rxDone =>
    simp only [runRow, rowRxDone, rowOutcome, capturePacket_eq]
    exact armListen_eq _
  case txdTimeout => simp only [runRow, rowTxdTimeout, rowOutcome, restart_eq]; rfl
  case scanDetect => simp only [runRow, rowScanDetect, rowOutcome, armRxSingle_eq]; rfl
  case cadDetect => simp only [runRow, rowCadDetect, rowOutcome, armRxSingle_eq]; rfl
  case txdUnexpected =>
    simp only [runRow, rowTxdUnexpected, rowOutcome, State.logUnexpected_eq]
    exact forceScan_eq _
  all_goals first
    | rfl
    | exact armScannerInto_eq _ _
    | exact armScanner_eq _
    | exact armListen_eq _
    | exact unexpected_eq _ _

/-- An EVAL operation is its row's action to the end of its pass, and no row's meaning stops (log entry 17). -/
theorem exec_row (row : Row) (k : BitVec 16) (s : State) (h : rowTransmits row = true → s.keyable) :
    exec (row.instr k) s = .next (rowOutcome row k s).passEnded := by
  have e : exec (row.instr k) s = .next (s.runToEnd (runRow row k s)) := by cases row <;> rfl
  rw [e, runRow_eq row k s h]
  rfl

/-! ## The key (rules R95, R190 to R194) -/

/-- A bit of the key stands at its position alone. -/
theorem keyBit_getElem (b : Bool) (p i : Nat) (hi : i < 16) : (keyBit b p)[i] = (b && decide (i = p)) := by
  cases b
  · simp [keyBit]
  · simp only [keyBit, if_true, BitVec.getElem_shiftLeft, BitVec.getElem_one, Bool.true_and]
    by_cases h1 : i < p
    · have : i ≠ p := by omega
      simp [h1, this]
    · have : i - p = 0 ↔ i = p := by omega
      simp [h1, this]

/-- The fields of the key that a pass forms (rule R191). -/
theorem State.key_fields (s : State) (flags : Byte) (tmo x : Bool) :
    (s.key flags tmo x).extractLsb' 13 3 = s.radioState ∧ (s.key flags tmo x).extractLsb' 0 8 = flags ∧
      (s.key flags tmo x).getLsbD 8 = s.outValid ∧ (s.key flags tmo x).getLsbD 9 = s.scannerMode ∧
      (s.key flags tmo x).getLsbD 10 = s.cfgHop ∧ (s.key flags tmo x).getLsbD 11 = tmo ∧
      (s.key flags tmo x).getLsbD 12 = x := by
  unfold State.key
  refine ⟨?_, ?_, ?_, ?_, ?_, ?_, ?_⟩
  · apply BitVec.eq_of_getLsbD_eq
    intro i hi
    have h : i = 0 ∨ i = 1 ∨ i = 2 := by omega
    rcases h with rfl | rfl | rfl <;> simp [keyBit_getElem]
  · apply BitVec.eq_of_getLsbD_eq
    intro i hi
    simp [keyBit_getElem, hi, show i < 16 by omega, show i < 13 by omega, show i ≠ 12 by omega, show i ≠ 11 by omega,
      show i ≠ 10 by omega, show i ≠ 9 by omega, show i ≠ 8 by omega]
  all_goals simp [keyBit_getElem]

/-- The state in which the row of a pass runs differs from the pass's start in the pass flag, the latch, the timestamps, the
chip oracle and the event history. -/
theorem State.passReady_frame (s : State) :
    s.passReady.passActive = true ∧ s.passReady.pending = false ∧ s.passReady.radioState = s.radioState ∧
    s.passReady.booted = s.booted ∧ s.passReady.txPhase = s.txPhase ∧ s.passReady.sf = s.sf ∧ s.passReady.ch = s.ch ∧
    s.passReady.cfgSF = s.cfgSF ∧ s.passReady.cfgHop = s.cfgHop ∧ s.passReady.cfgCad = s.cfgCad ∧
    s.passReady.cfgCh = s.cfgCh ∧ s.passReady.cfg0 = s.cfg0 ∧ s.passReady.clock = s.clock ∧
    s.passReady.lastRssi = s.lastRssi ∧ s.passReady.inValid = s.inValid ∧ s.passReady.inbound = s.inbound ∧
    s.passReady.outValid = s.outValid ∧ s.passReady.outbound = s.outbound ∧ s.passReady.stats = s.stats ∧
    s.passReady.halted = s.halted ∧ s.passReady.modeShadow = s.modeShadow ∧ s.passReady.faults = s.faults ∧
    s.passReady.log = s.log ∧ s.passReady.par = s.par ∧ s.passReady.inbox = s.inbox ∧ s.passReady.waiting = s.waiting ∧
    s.passReady.result = s.result := by
  unfold State.passReady State.secondaryStep State.passSampled
  split <;> simp

/-- A pass, for a request that SUBMIT_TX accepted: it does what its row does, and no pass fails (rule R190). -/
theorem evalPass_eq (s : State) (h : s.keyable ∨ rowTransmits (decodeKey s.passKey) = false) :
    evalPass s = .ok (rowOutcome (decodeKey s.passKey) s.passKey s.passReady).passEnded := by
  unfold evalPass
  rw [runRow_eq]
  · rfl
  · intro ht
    have hk : s.keyable := h.resolve_right (by simp [ht])
    simpa [State.keyable, s.passReady_frame] using hk

/-! ## Bring-up (rule R372) -/

/-- The initialisation writes are appended to the event history. -/
theorem State.writeAll_eq (s : State) (l : List (BitVec 7 × Byte)) :
    s.writeAll l = s.appended (l.map fun w => ⟨.write, w.1.setWidth 8, [w.2]⟩) [] := by
  induction l generalizing s with
  | nil => simp [State.writeAll, State.appended]
  | cons p l ih =>
    obtain ⟨a, v⟩ := p
    rw [State.writeAll, ih]
    apply State.ext <;> simp

/-- A successful bring-up in closed form. -/
theorem bringupConfigure_eq (s : State) (h : s.chipIdMatches = true) : s.checkChipId.bringupConfigure = s.broughtUp := by
  simp only [State.checkChipId, h, if_true, State.bringupConfigure, State.broughtUp, State.writeAll_eq]
  have hl : ∀ r : State, r.setLoraMode.regValue = (r.readReg .opMode).regValue :=
    fun _ => (State.regValue_congr rfl rfl rfl).2
  have ha : ∀ (r : State) (x : List SpiEvent) (y : List LogEntry), (r.appended x y).regValue = r.regValue :=
    fun _ _ _ => (State.regValue_congr rfl rfl rfl).2
  have hr : ∀ r t : State, t.par = r.par → t.chipAnswers = r.chipAnswers → t.draws = r.draws →
      (t.readReg .opMode).regValue = (r.readReg .opMode).regValue := fun _ _ => State.regValue_readReg_congr .opMode
  have ho : (((s.readReg .version).setOpMode .sleep).readReg .opMode).regValue =
      (((s.readReg .version).readReg .opMode).readReg .opMode).regValue := hr _ _ rfl rfl rfl
  apply State.ext <;> simp [State.bringupEvents, stInit, State.modeEvents, hl, ha, ho]

end Sys2Proof.Machine
end

