-- ==== Sys2Proof/Tests/Slice0.lean ====
section
/-! SUPPORT. Tests of the model on the fixture of 95_test_vectors.md section 2 (the spec's derived vectors; the bytes that the
spec leaves symbolic stand at 0), and a witness for the hypotheses of each statement. -/

namespace Sys2Proof.Tests

open Sys2Proof Sys2Proof.Machine

/-! ## The fixture (95_test_vectors.md section 2) -/

/-- A plan entry with SF 7 to 12, for a frequency in range. -/
def entry (f : BitVec 32) (h : f.toNat * 2 ^ 19 / 32000000 < 2 ^ 24) : PlanEntry :=
  ⟨f, 0, 7, 12, f, 0, 7, 12, by decide, h⟩

def plan : Plan :=
  ⟨[entry 868100000 (by decide), entry 868300000 (by decide), entry 868500000 (by decide)], by decide,
    entry 868100000 (by decide)⟩

def bytes0 : PerVariant Byte := ⟨0, 0⟩

def rates0 : PerVariant (PerSf Rate) := perVariant fun _ => perSf fun _ => ⟨0, 0, 0⟩

def params : Params where
  variant := .a
  timeBits := 32
  plan := plan
  regs := defaultRegMap
  modes := defaultModeMap
  dioMap := defaultDioMap
  expectedChipId := ⟨0x12, 0x12⟩
  rssiThreshold := 60
  doneWaitScan := perSf fun _ => 5000
  doneWaitCad := perSf fun _ => 5000
  eventWait := perSf fun _ => 100000
  txDelay := 0
  sf7Extra := 0
  coarseThreshold := 16000
  dropOnMiss := false
  maxTxLen := 255
  rateNoCrc := rates0
  rateCrc := rates0
  symbTimeoutShort := bytes0
  symbTimeoutLong := bytes0
  paHighNibble := ⟨8, 8⟩
  iqNormal := bytes0
  iqInverted := bytes0
  txFifoBase := 0
  rxCrcFlag := true
  requireValidHeader := true
  snrRounding := .floor
  threeIrqLines := false
  initWrites := ⟨[], []⟩
  tCss := 0
  tCsh := 0
  tCsi := 0
  spiMode := 0
  txLateBound := 0
  txBrokenVariant := .a
  timeBitsPos := by decide
  waitsFit := by decide
  delaysFit := by decide

/-- The parameters with a clock of 20 bits. -/
def params20 : Params :=
  { params with timeBits := 20, timeBitsPos := by decide, waitsFit := by decide, delaysFit := by decide }

/-- A block that has booted, in a radio state, with a clock, hop and cad, and answers that the chip has ready by address. -/
def block (state : BitVec 3) (clock : Nat) (hop cad : Bool) (answers : List (Byte × Byte)) : State where
  radioState := state
  passActive := false
  booted := true
  txPhase := .idle
  sf := 7
  ch := 0
  cfgSF := 9
  cfgHop := hop
  cfgCad := cad
  cfgCh := 0
  cfg0 := ⟨9, if hop then 1 else 0, if cad then 1 else 0, 0⟩
  pending := false
  eventTime := 0
  doneTime := 0
  clock := clock
  lastRssi := 0
  inValid := false
  inbound := ⟨List.replicate 128 0, 0, 0, 0, 7, 0, 0⟩
  outValid := false
  outbound := ⟨List.replicate 255 0, 0, 0, 0, 0, 0, false, false⟩
  stats := zeroStats 3
  halted := false
  modeShadow := match state.toNat with | 1 | 2 => .known .cad | 3 => .known .rxSingle | 5 => .known .tx | _ => .known .standby
  faults := []
  log := []
  history := []
  par := params
  inbox := []
  waiting := []
  chipAnswers := answers
  draws := 0
  result := .none

/-- A request of one byte for 868.1 MHz. -/
def request (target : Nat) : OutboundRequest := ⟨[0x40], target, 9, 20, 868100000, false, true⟩

/-- A block that holds a staged request. -/
def staged (s : State) (target : Nat) : State :=
  { s with outValid := true, outbound := ⟨0x40 :: List.replicate 254 0, 1, target, 9, 20, 868100000, false, true⟩ }

/-- A block before bring-up, with `Cfg0`. -/
def unbooted (c : CfgRecord) (answers : List (Byte × Byte)) : State :=
  { block 0 0 false false answers with booted := false, cfg0 := c, modeShadow := .unknown }

/-- The state that a step gives. -/
def after (s : State) : State :=
  match step s with
  | .next t => t
  | _ => s

/-- The state that an operation gives. -/
def ran (i : Instr) (s : State) : State :=
  match exec i s with
  | .next t => t
  | _ => s

/-- Two answers of the mode register, which an arming sequence reads twice. -/
def modes : List (Byte × Byte) := [(0x01, 0), (0x01, 0)]

/-- What a pass shows: its key, then the radio state, the SF, the channel, the number of transactions and the log after it. -/
structure Seen where
  key : BitVec 16
  state : BitVec 3
  sf : BitVec 4
  ch : Nat
  spi : Nat
  log : List (LogCode × List Nat)
deriving DecidableEq, Repr

def seen (s : State) : Seen where
  key := s.passKey
  state := (after s).radioState
  sf := (after s).sf
  ch := (after s).ch
  spi := (after s).history.length
  log := (after s).log.map fun e => (e.code, e.info)

/-- The bytes on the bus that an operation makes. -/
def wires (i : Instr) (s : State) : List (List Byte) := (ran i s).history.map SpiEvent.wire

/-! ## Well-formedness: each check refuses an ill-formed operation (rules R90, R91, R101, R103) -/

theorem test_wf_refuses_spiRead : (Instr.spiRead 0x80).wf = false := by decide

theorem test_wf_refuses_spiWrite : (Instr.spiWrite 0x80 0).wf = false := by decide

theorem test_wf_refuses_burst_address : (Instr.spiBurstWrite 0x80 [1]).wf = false := by decide

theorem test_wf_refuses_burst_empty : (Instr.spiBurstWrite 0x00 []).wf = false := by decide

theorem test_wf_refuses_irqEdge : (Instr.irqEdge 3).wf = false := by decide

theorem test_wf_refuses_keys_1 :
    (Instr.evInit 0x2000).wf = false ∧
    (Instr.evScanDetect 0x2004).wf = false ∧
    (Instr.evScanPromote 0x2204).wf = false ∧
    (Instr.evScanDoneHop 0x3604).wf = false ∧
    (Instr.evScanStay 0x2604).wf = false ∧
    (Instr.evScanTxreq 0x2302).wf = false ∧
    (Instr.evScanSofthop 0x2F00).wf = false ∧
    (Instr.evScanIdle 0x2E00).wf = false ∧
    (Instr.evScanUnexpected 0x2204).wf = false ∧
    (Instr.evCadDetect 0x4204).wf = false ∧
    (Instr.evCadNextSf 0x5204).wf = false := by decide

theorem test_wf_refuses_keys_2 :
    (Instr.evCadExhausted 0x4204).wf = false ∧
    (Instr.evCadTxreq 0x4200).wf = false ∧
    (Instr.evCadSofthop 0x4300).wf = false ∧
    (Instr.evCadIdle 0x4E00).wf = false ∧
    (Instr.evCadUnexpected 0x4200).wf = false ∧
    (Instr.evRxCrcerr 0x7250).wf = false ∧
    (Instr.evRxHdrinv 0x7250).wf = false ∧
    (Instr.evRxDone 0x7270).wf = false ∧
    (Instr.evRxTimeoutHop 0x6080).wf = false ∧
    (Instr.evRxTimeout 0x6680).wf = false ∧
    (Instr.evRxHdrseen 0x6212).wf = false := by decide

theorem test_wf_refuses_keys_3 :
    (Instr.evRxTxreq 0x6300).wf = false ∧
    (Instr.evRxSofttmo 0x6200).wf = false ∧
    (Instr.evRxIdle 0x6E00).wf = false ∧
    (Instr.evRxUnexpected 0x6210).wf = false ∧
    (Instr.evTxRun 0x8000).wf = false ∧
    (Instr.evTxNoreq 0x8100).wf = false ∧
    (Instr.evTxdDone 0xA000).wf = false ∧
    (Instr.evTxdTimeout 0xA000).wf = false ∧
    (Instr.evTxdWait 0xA800).wf = false ∧
    (Instr.evTxdUnexpected 0xA008).wf = false ∧
    (Instr.evDefault 0xA000).wf = false := by decide

/-! ## Decoding: one word written out from the encoding for each constructor (rules R90, R91, R96, R98 to R101) -/

theorem test_decode_spiRead : decode (.spi false [0x42, 0x12]) = .ok (.spiRead 0x42) := by decide

theorem test_decode_spiWrite : decode (.spi false [0x81, 0x81]) = .ok (.spiWrite 0x01 0x81) := by decide

theorem test_decode_spiBurstWrite : decode (.spi true [0x80, 0x40]) = .ok (.spiBurstWrite 0x00 [0x40]) := by decide

theorem test_decode_setFrequency : decode (.op 0x2000 (.hz 868100000)) = .ok (.setFrequency 868100000) := by decide

theorem test_decode_setRate : decode (.op 0x2101 (.rate 9)) = .ok (.setRate true 9) := by decide

theorem test_decode_setPower : decode (.op 0x2200 (.power 0xFF)) = .ok (.setPower 0xFF) := by decide

theorem test_decode_setOpmode : decode (.op 0x2305 .empty) = .ok (.setOpmode .rxCont) := by decide

theorem test_decode_setIq : decode (.op 0x2401 .empty) = .ok (.setIq true) := by decide

theorem test_decode_clearIrq : decode (.op 0x25FF .empty) = .ok (.clearIrq 0xFF) := by decide

theorem test_decode_setIrqMask : decode (.op 0x26FA .empty) = .ok (.setIrqMask 0xFA) := by decide

theorem test_decode_setDioMap : decode (.op 0x2702 .empty) = .ok (.setDioMap .tx) := by decide

theorem test_decode_checkChipId : decode (.op 0x2800 .empty) = .ok (.checkChipId) := by decide

theorem test_decode_advanceChannel : decode (.op 0x3000 .empty) = .ok (.advanceChannel) := by decide

theorem test_decode_evalPass : decode (.op 0x4000 .empty) = .ok (.evalPass) := by decide

theorem test_decode_armScanner : decode (.op 0x4100 .empty) = .ok (.armScanner) := by decide

theorem test_decode_armRxSingle : decode (.op 0x4200 .empty) = .ok (.armRxSingle) := by decide

theorem test_decode_armRxCont : decode (.op 0x4300 .empty) = .ok (.armRxCont) := by decide

theorem test_decode_armListen : decode (.op 0x4400 .empty) = .ok (.armListen) := by decide

theorem test_decode_keyTx : decode (.op 0x4500 .empty) = .ok (.keyTx) := by decide

theorem test_decode_recover : decode (.op 0x4600 .empty) = .ok (.recover) := by decide

theorem test_decode_restart : decode (.op 0x4700 .empty) = .ok (.restart) := by decide

theorem test_decode_forceScan : decode (.op 0x4800 .empty) = .ok (.forceScan) := by decide

theorem test_decode_bringup : decode (.op 0x4900 .empty) = .ok (.bringup) := by decide

theorem test_decode_waitUntil : decode (.op 0x5000 (.wait 50000 7)) = .ok (.waitUntil 50000 7) := by decide

theorem test_decode_capturePacket : decode (.op 0x6000 .empty) = .ok (.capturePacket) := by decide

theorem test_decode_irqEdge : decode (.op 0x8002 .empty) = .ok (.irqEdge 2) := by decide

theorem test_decode_submitTx : decode (.op 0x8100 (.request (request 7))) = .ok (.submitTx (request 7)) := by decide

theorem test_decode_takePacket : decode (.op 0x8200 .empty) = .ok (.takePacket) := by decide

theorem test_decode_readStats : decode (.op 0x8300 .empty) = .ok (.readStats) := by decide

theorem test_decode_configure : decode (.op 0x8400 (.config ⟨9, 0, 1, 2⟩)) = .ok (.configure ⟨9, 0, 1, 2⟩) := by decide

theorem test_decode_readState : decode (.op 0x8500 .empty) = .ok (.readState) := by decide

theorem test_decode_reset : decode (.op 0x8600 (.config ⟨7, 1, 0, 1⟩)) = .ok (.reset ⟨7, 1, 0, 1⟩) := by decide

theorem test_decode_clockAdvance : decode (.op 0x8700 (.tick 1000)) = .ok (.clockAdvance 1000) := by decide

theorem test_decode_evInit : decode (.eval 0x0600) = .ok (.evInit 0x0600) := by decide

theorem test_decode_evScanDetect : decode (.eval 0x2205) = .ok (.evScanDetect 0x2205) := by decide

theorem test_decode_evScanPromote : decode (.eval 0x3604) = .ok (.evScanPromote 0x3604) := by decide

theorem test_decode_evScanDoneHop : decode (.eval 0x2604) = .ok (.evScanDoneHop 0x2604) := by decide

theorem test_decode_evScanStay : decode (.eval 0x2204) = .ok (.evScanStay 0x2204) := by decide

theorem test_decode_evScanTxreq : decode (.eval 0x2F00) = .ok (.evScanTxreq 0x2F00) := by decide

theorem test_decode_evScanSofthop : decode (.eval 0x2E00) = .ok (.evScanSofthop 0x2E00) := by decide

theorem test_decode_evScanIdle : decode (.eval 0x2600) = .ok (.evScanIdle 0x2600) := by decide

theorem test_decode_evScanUnexpected : decode (.eval 0x2302) = .ok (.evScanUnexpected 0x2302) := by decide

theorem test_decode_evCadDetect : decode (.eval 0x4601) = .ok (.evCadDetect 0x4601) := by decide

theorem test_decode_evCadNextSf : decode (.eval 0x4204) = .ok (.evCadNextSf 0x4204) := by decide

theorem test_decode_evCadExhausted : decode (.eval 0x5204) = .ok (.evCadExhausted 0x5204) := by decide

theorem test_decode_evCadTxreq : decode (.eval 0x4300) = .ok (.evCadTxreq 0x4300) := by decide

theorem test_decode_evCadSofthop : decode (.eval 0x4E00) = .ok (.evCadSofthop 0x4E00) := by decide

theorem test_decode_evCadIdle : decode (.eval 0x4200) = .ok (.evCadIdle 0x4200) := by decide

theorem test_decode_evCadUnexpected : decode (.eval 0x4208) = .ok (.evCadUnexpected 0x4208) := by decide

theorem test_decode_evRxCrcerr : decode (.eval 0x7270) = .ok (.evRxCrcerr 0x7270) := by decide

theorem test_decode_evRxHdrinv : decode (.eval 0x60C0) = .ok (.evRxHdrinv 0x60C0) := by decide

theorem test_decode_evRxDone : decode (.eval 0x7250) = .ok (.evRxDone 0x7250) := by decide

theorem test_decode_evRxTimeoutHop : decode (.eval 0x6680) = .ok (.evRxTimeoutHop 0x6680) := by decide

theorem test_decode_evRxTimeout : decode (.eval 0x6080) = .ok (.evRxTimeout 0x6080) := by decide

theorem test_decode_evRxHdrseen : decode (.eval 0x6210) = .ok (.evRxHdrseen 0x6210) := by decide

theorem test_decode_evRxTxreq : decode (.eval 0x6100) = .ok (.evRxTxreq 0x6100) := by decide

theorem test_decode_evRxSofttmo : decode (.eval 0x6E00) = .ok (.evRxSofttmo 0x6E00) := by decide

theorem test_decode_evRxIdle : decode (.eval 0x6300) = .ok (.evRxIdle 0x6300) := by decide

theorem test_decode_evRxUnexpected : decode (.eval 0x6212) = .ok (.evRxUnexpected 0x6212) := by decide

theorem test_decode_evTxRun : decode (.eval 0x8100) = .ok (.evTxRun 0x8100) := by decide

theorem test_decode_evTxNoreq : decode (.eval 0x8000) = .ok (.evTxNoreq 0x8000) := by decide

theorem test_decode_evTxdDone : decode (.eval 0xA208) = .ok (.evTxdDone 0xA208) := by decide

theorem test_decode_evTxdTimeout : decode (.eval 0xA800) = .ok (.evTxdTimeout 0xA800) := by decide

theorem test_decode_evTxdWait : decode (.eval 0xA000) = .ok (.evTxdWait 0xA000) := by decide

theorem test_decode_evTxdUnexpected : decode (.eval 0xA240) = .ok (.evTxdUnexpected 0xA240) := by decide

theorem test_decode_evDefault : decode (.eval 0xE0FF) = .ok (.evDefault 0xE0FF) := by decide

/-- V-HOST-5, -6, -27, -29, V-CFG-12: the words that are no operation (rules R91, R103). -/
theorem test_decode_refuses :
    decode (.op 0x8800 .empty) = .error .unassignedCode ∧
    decode (.op 0x8101 (.request (request 7))) = .error .reservedBits ∧
    decode (.op 0x8003 .empty) = .error .reservedBits ∧ decode (.op 0x8004 .empty) = .error .reservedBits ∧
    decode (.op 0x2703 .empty) = .error .reservedBits ∧ decode (.op 0x2000 .empty) = .error .wrongRecord ∧
    decode (.spi false [0x12]) = .error .badFrame ∧ decode (.spi true [0x12, 0x04]) = .error .badFrame := by decide

/-- The host's table words (log entry 3). -/
theorem test_tableWords :
    decodeTableWord 16 0x2101 = some (.setRate true 0) ∧ decodeTableWord 16 0x7250 = some (.evRxDone 0x7250) ∧
    decodeTableWord 8 0x12 = some (.spiRead 0x12) ∧ decodeTableWord 8 0x92 = some (.spiWrite 0x12 0) := by decide

/-! ## Operations on small states (95_test_vectors.md sections 3.1 to 3.12) -/

/-- V-SPI-1, -4, -8. -/
theorem test_spi : wires (.spiRead 0x12) (block 1 0 false true [(0x12, 0x04)]) = [[0x12, 0x04]] ∧
    wires (.spiWrite 0x12 0xFF) (block 1 0 false true []) = [[0x92, 0xFF]] ∧
    wires (.spiBurstWrite 0x00 [1, 2, 3]) (block 1 0 false true []) = [[0x80, 1, 2, 3]] := by decide

/-- V-SPI-10, -11. -/
theorem test_spi_faults : (ran (.spiWrite 0x80 0) (block 1 0 false true [])).faults = [.addrRange] ∧
    (ran (.spiBurstWrite 0x00 []) (block 1 0 false true [])).faults = [.emptyBurst] := by decide

/-- V-FRQ-7, -11. -/
theorem test_setFrequency :
    wires (.setFrequency 869525000) (block 0 0 false false []) = [[0x86, 0xD9], [0x87, 0x61], [0x88, 0x99]] ∧
    wires (.setFrequency 1023999999) (block 0 0 false false []) = [[0x86, 0xFF], [0x87, 0xFF], [0x88, 0xFF]] := by decide

/-- V-FRQ-12, -13. -/
theorem test_setFrequency_faults : (ran (.setFrequency 1024000000) (block 0 0 false false [])).faults = [.freqRange] ∧
    (ran (.setFrequency 868100000) (block 1 0 false true [])).faults = [.configActive] := by decide

/-- V-RATE-2, -8, -9. -/
theorem test_setRate :
    wires (.setRate true 10) (block 0 0 false false []) = [[0x9D, 0], [0x9E, 0xA0], [0xA6, 0], [0x9F, 0]] ∧
    (ran (.setRate true 6) (block 1 0 false true [])).log = [⟨.sfRange, [6], 0⟩] ∧
    (ran (.setRate true 7) (block 1 0 false true [])).faults = [.configActive] := by decide

/-- Section 3.4: -128, 14, 16. -/
theorem test_setPower : wires (.setPower 0x80) (block 0 0 false false []) = [[0x89, 0x82]] ∧
    wires (.setPower 14) (block 0 0 false false []) = [[0x89, 0x8E]] ∧
    wires (.setPower 16) (block 0 0 false false []) = [[0x89, 0x8F]] := by decide

/-- V-OPM-1, -3. -/
theorem test_setOpmode : wires (.setOpmode .rxCont) (block 1 0 false true [(0x01, 0xFF)]) = [[0x01, 0xFF], [0x81, 0xFD]] ∧
    (ran (.setOpmode .cad) (block 0 0 false false [(0x01, 0x81)])).modeShadow = .known .cad := by decide

/-- V-CFG-2, -4, -8, -9. -/
theorem test_registerWrites :
    wires (.setIq true) (block 1 0 false true []) = [[0xB3, 0]] ∧
    wires (.clearIrq 0) (block 1 0 false true []) = [[0x92, 0]] ∧
    wires (.setIrqMask 0xF7) (block 1 0 false true []) = [[0x91, 0xF7]] ∧
    wires (.setDioMap .cad) (block 1 0 false true []) = [[0xC0, 0xA0]] := by decide

/-- V-ID-1, -4. -/
theorem test_checkChipId : (ran .checkChipId (block 0 0 false false [(0x42, 0x12)])).result = .ok ∧
    (ran .checkChipId (block 0 0 false false [(0x42, 0x22)])).halted = true ∧
    (ran .checkChipId (block 0 0 false false [(0x42, 0x22)])).log = [⟨.chipId, [0x22], 0⟩] := by decide

/-- Section 3.8. -/
theorem test_advanceChannel : (ran .advanceChannel { block 1 0 true false [] with ch := 2, sf := 10 }).ch = 0 ∧
    (ran .advanceChannel { block 1 0 true false [] with ch := 2, sf := 10 }).sf = 7 := by decide

/-- Section 3.12, ARM_SCANNER. -/
theorem test_armScanner :
    wires .armScanner (block 1 5 false true modes) =
      [[0x01, 0], [0x81, 1], [0x92, 0xFF], [0x86, 0xD9], [0x87, 0x06], [0x88, 0x66], [0x9D, 0], [0x9E, 0x70], [0xA6, 0],
       [0x9F, 0], [0xB3, 0], [0xC0, 0xA0], [0x91, 0xFA], [0x01, 0], [0x81, 7]] := by decide

/-- Section 3.12, ARM_RX_SINGLE. -/
theorem test_armRxSingle : wires .armRxSingle (block 1 5 false true [(0x1B, 0x40), (0x01, 0x80)]) =
    [[0xC0, 0], [0x1B, 0x40], [0x92, 0xFF], [0x91, 0x0F], [0x01, 0x80], [0x81, 0x86]] := by decide

/-- Section 3.12, ARM_RX_CONT. -/
theorem test_armRxCont :
    (wires .armRxCont (block 1 5 false false modes)).length = 15 ∧
    (ran .armRxCont (block 1 5 false false modes)).sf = 9 ∧
    (ran .armRxCont (block 1 5 false false modes)).modeShadow = .known .rxCont := by decide

/-- Section 3.12, ARM_LISTEN. -/
theorem test_armListen :
    (ran .armListen (block 0 5 false true modes)).radioState = 1 ∧
    (ran .armListen (block 0 5 false false modes)).radioState = 3 := by decide

/-- FORCE_SCAN with `SM = 0` (rule R204). -/
theorem test_forceScan : (ran .forceScan (block 5 5 false false modes)).radioState = 1 := by decide

/-- Section 3.12, RECOVER. -/
theorem test_recover : (wires .recover (block 1 5 false true modes)).length = 17 := by decide

/-- Section 3.12, RESTART. -/
theorem test_restart :
    wires .restart (block 5 5 false false modes) = [[0x01, 0], [0x81, 0], [0x01, 0], [0x81, 1], [0x92, 0xFF], [0x91, 0]] := by
  decide

/-- Section 3.12, KEY_TX, with one byte. -/
theorem test_keyTx :
    wires .keyTx (staged (block 4 5 false false modes) 5) =
      [[0x01, 0], [0x81, 1], [0x86, 0xD9], [0x87, 0x06], [0x88, 0x66], [0x9D, 0], [0x9E, 0x90], [0xA6, 0], [0x9F, 0],
       [0x89, 0x8F], [0xB3, 0], [0xA2, 1], [0x8D, 0], [0x80, 0x40], [0xC0, 0x40], [0x01, 0], [0x81, 3]] := by decide

/-- V-SCH-1, -2. -/
theorem test_waitUntil :
    (ran (.waitUntil 1000 9) (block 4 1500 false false [])).log = [⟨.txMissed, [1000, 1000, 1500], 1500⟩] ∧
    (ran (.waitUntil 3000 9) (block 4 3000 false false [])).result = .missed false := by decide

/-- V-SCH-6, -8. -/
theorem test_waitUntil_ahead : (ran (.waitUntil 0x100 9) (block 4 0xFFFFFF00 false false [])).txPhase = .waiting 0x100 ∧
    (ran (.waitUntil 0x80000000 9) (block 4 0 false false [])).result = .missed true := by decide

/-- V-S5 with two bytes. -/
theorem test_capturePacket :
    (ran .capturePacket (block 3 100 false false
      [(0x19, 0x28), (0x1A, 0x50), (0x13, 2), (0x10, 0x80), (0x00, 0x40), (0x00, 0x41)])).inbound =
      ⟨0x40 :: 0x41 :: List.replicate 126 0, 2, -59, 10, 7, 0, 100⟩ := by decide

/-- V-CAP-2, and the SNR of V-CAP-1. -/
theorem test_capturePacket_empty :
    (ran .capturePacket (block 3 100 false false [(0x19, 0xF6), (0x1A, 0), (0x13, 0), (0x10, 0x80)])).inbound.snr = -3 ∧
    wires .capturePacket (block 3 100 false false [(0x19, 0xF6), (0x1A, 0), (0x13, 0), (0x10, 0x80)]) =
      [[0x19, 0xF6], [0x1A, 0], [0x13, 0], [0x10, 0x80], [0x8D, 0x80]] := by decide

/-! ## The external interface (95_test_vectors.md sections 3.14, 3.16, 3.17) -/

/-- V-HOST-2, -3. -/
theorem test_irqEdge : (ran (.irqEdge 1) (block 1 0 false true [])).pending = true ∧
    (ran (.irqEdge 2) (block 1 0 false true [])).result = .refused .badOp := by decide

/-- V-HOST-11 to -13. -/
theorem test_submitTx :
    (ran (.submitTx (request 5)) (block 1 0 false true [])).outValid = true ∧
    (ran (.submitTx (request 5)) (staged (block 1 0 false true []) 0)).log = [⟨.txBusy, [], 0⟩] ∧
    (ran (.submitTx { request 5 with payload := [] }) (block 1 0 false true [])).log = [⟨.txInvalid, [0, 868100000], 0⟩] := by
  decide

/-- V-HOST-19, and a packet of no bytes. -/
theorem test_takePacket :
    (ran .takePacket { block 1 0 false true [] with inValid := true }).result = .packet ⟨[], 0, 0, 0, 7, 0, 0⟩ ∧
    (ran .takePacket (block 1 0 false true [])).result = .empty := by decide

/-- V-HOST-20. -/
theorem test_readStats : (ran .readStats (block 1 0 false true [])).result = .stats (zeroStats 3) := by decide

/-- V-HOST-21, -26. -/
theorem test_configure :
    (ran (.configure ⟨9, 0, 0, 2⟩) (block 1 0 false true [])).cfgCh = 2 ∧
    (ran (.configure ⟨9, 0, 0, 2⟩) (block 1 0 false true [])).ch = 0 ∧
    (ran (.configure ⟨7, 1, 0, 2⟩) (block 1 0 false true [])).ch = 2 := by decide

/-- V-HOST-22, -23, -25. -/
theorem test_configure_rejects :
    (ran (.configure ⟨6, 0, 0, 0⟩) (block 1 0 false true [])).log = [⟨.configRejected, [6, 0, 0, 0], 0⟩] ∧
    (ran (.configure ⟨7, 1, 0, 3⟩) (block 1 0 false true [])).result = .rejected ∧
    (ran (.configure ⟨7, 0, 0, 0⟩) (block 5 0 false true [])).result = .rejected := by decide

/-- V-SCH-10, -11. -/
theorem test_readState : (ran .readState { block 4 0 false true [] with txPhase := .waiting 16001 }).result =
      .snapshot ⟨4, 7, 0, 9, false, true, 0, .waiting 16001, .coarse, 0, false, false, false, .known .standby, [], []⟩ ∧
    { block 4 1 false true [] with txPhase := .waiting 16001 }.waitPhase = .fine := by decide

/-- V-RST-2, -3. -/
theorem test_reset :
    (ran (.reset ⟨7, 0, 0, 2⟩) (block 1 0 false true [])).cfgCh = 2 ∧
    (ran (.reset ⟨7, 0, 0, 2⟩) (block 1 0 false true [])).ch = 0 ∧
    (ran (.reset ⟨7, 1, 0, 2⟩) (block 1 0 false true [])).ch = 2 ∧
    (ran (.reset ⟨7, 1, 0, 2⟩) (block 1 0 false true [])).booted = false := by decide

/-- An index of 3 channels has 2 bits (rule R25). -/
theorem test_reset_index :
    (ran (.reset ⟨7, 1, 0, 7⟩) (block 1 0 false true [])).cfgCh = 3 ∧
    (ran (.reset ⟨7, 1, 0, 7⟩) (block 1 0 false true [])).ch = 3 := by decide

/-- V-HOST-7, -10. -/
theorem test_clockAdvance : (ran (.clockAdvance 0x20) (block 1 0xFFFFFFF0 false true [])).clock = 0x10 ∧
    (ran (.clockAdvance 0) (block 1 0 false true [])).log = [⟨.badOp, [], 0⟩] := by decide

/-- V-HOST-7 and the upper bound of a step, with `W = 20` (rules R6, R40). -/
theorem test_clockAdvance_20 :
    (ran (.clockAdvance 0x20) { block 1 0xFFFF0 false true [] with par := params20 }).clock = 0x10 ∧
    (ran (.clockAdvance 0x80000) { block 1 0 false true [] with par := params20 }).result = .refused .badOp := by decide

/-- Only the clock agent advances the clock (rule R40). -/
theorem test_clockAdvance_agent :
    (after { block 1 5 false true [] with inbox := [.frame .host (.op 0x8700 (.tick 9))] }).clock = 5 ∧
    (after { block 1 5 false true [] with inbox := [.frame .clock (.op 0x8700 (.tick 9))] }).clock = 14 := by decide

/-- V-SCH-6, -7. -/
theorem test_clockAdvance_releases :
    (ran (.clockAdvance 511) { block 4 0xFFFFFF00 false true [] with txPhase := .waiting 0x100 }).txPhase = .waiting 0x100 ∧
    (ran (.clockAdvance 2147483647) { block 4 0 false true [] with txPhase := .waiting 1000 }).txPhase = .released := by
  decide

/-- V-BRG-1. -/
theorem test_bringup :
    (after (unbooted ⟨7, 1, 0, 0⟩ [(0x42, 0x12), (0x01, 0), (0x01, 0), (0x01, 0x80)])).history.map SpiEvent.wire =
      [[0x42, 0x12], [0x01, 0], [0x81, 0], [0x01, 0], [0x81, 0x80], [0x01, 0x80], [0x81, 0x81]] := by decide

/-- V-BRG-2, -3. -/
theorem test_bringup_fails : (after (unbooted ⟨7, 1, 0, 0⟩ [(0x42, 0)])).log = [⟨.chipId, [0], 0⟩] ∧
    (after (unbooted ⟨13, 0, 0, 0⟩ [])).faults = [.cfg0Invalid] := by decide

/-- V-HOST-27, -28. -/
theorem test_hostRefused :
    (after { block 1 0 false true [] with inbox := [.frame .host (.op 0x4000 .empty)] }).result = .refused .internal ∧
    (after { block 1 0 false true [] with inbox := [.frame .host (.op 0x8800 .empty)] }).log = [⟨.badOp, [], 0⟩] := by
  decide

/-- V-SCH-14. -/
theorem test_hostWaits :
    (after { block 4 0 false true [] with passActive := true, txPhase := .waiting 9, inbox := [.frame .host (.op 0x8200 .empty)] }).waiting = [.takePacket] := by
  decide

/-! ## The rows: one pass of the FSM engine for each (95_test_vectors.md section 3.13) -/

/-- Row 1. -/
theorem test_evInit : seen (block 0 0 false false ([(0x12, 0x00)] ++ modes)) = ⟨0x0000, 1, 7, 0, 18, []⟩ := by decide

/-- Row 2. -/
theorem test_evScanDetect :
    seen (block 1 0 false true [(0x12, 0x05), (0x1B, 0x40), (0x01, 0x00)]) = ⟨0x2205, 3, 7, 0, 7, []⟩ := by decide

/-- Row 3, V-THR-2. -/
theorem test_evScanPromote :
    seen (block 1 0 false true ([(0x12, 0x04), (0x1B, 0x3D)] ++ modes)) = ⟨0x3204, 2, 7, 0, 17, []⟩ := by decide

/-- Row 4, V-THR-3. -/
theorem test_evScanDoneHop :
    seen ({ block 1 0 true false ([(0x12, 0x04), (0x1B, 0x35)] ++ modes) with ch := 2 }) = ⟨0x2604, 1, 7, 0, 17, []⟩ := by
  decide

/-- Row 5, V-THR-1. -/
theorem test_evScanStay :
    seen (block 1 0 false true ([(0x12, 0x04), (0x1B, 0x3C)] ++ modes)) = ⟨0x2204, 1, 7, 0, 17, []⟩ := by decide

/-- Row 6. -/
theorem test_evScanTxreq :
    seen (staged (block 1 9 true false ([(0x12, 0x00)] ++ modes)) 9) = ⟨0x2700, 5, 7, 0, 20, []⟩ := by decide

/-- Row 7. -/
theorem test_evScanSofthop :
    seen (block 1 5001 true false ([(0x12, 0x00)] ++ modes)) = ⟨0x2E00, 1, 7, 1, 16, []⟩ := by decide

/-- Row 8. -/
theorem test_evScanIdle : seen (block 1 3000 true false [(0x12, 0x00)]) = ⟨0x2600, 1, 7, 0, 1, []⟩ := by decide

/-- Row 9. -/
theorem test_evScanUnexpected :
    seen (block 1 0 false true ([(0x12, 0x40)] ++ modes)) = ⟨0x2240, 1, 7, 0, 18, [(.unexpectedIrq, [1, 0x40])]⟩ := by
  decide

/-- Row 10. -/
theorem test_evCadDetect :
    seen (block 2 0 false true [(0x12, 0x01), (0x1B, 0x50), (0x01, 0x00)]) = ⟨0x4201, 3, 7, 0, 7, []⟩ := by decide

/-- Row 11. -/
theorem test_evCadNextSf :
    seen ({ block 2 0 false true ([(0x12, 0x04)] ++ modes) with sf := 11 }) = ⟨0x4204, 2, 12, 0, 16, []⟩ := by decide

/-- Row 12. -/
theorem test_evCadExhausted :
    seen ({ block 2 0 false true ([(0x12, 0x04)] ++ modes) with sf := 12 }) = ⟨0x5204, 1, 7, 0, 16, []⟩ := by decide

/-- Row 13. -/
theorem test_evCadTxreq :
    seen (staged (block 2 9 false true ([(0x12, 0x00)] ++ modes)) 9) = ⟨0x4300, 5, 7, 0, 20, []⟩ := by decide

/-- Row 14. -/
theorem test_evCadSofthop :
    seen (block 2 5001 true false ([(0x12, 0x00)] ++ modes)) = ⟨0x4E00, 1, 7, 1, 16, []⟩ := by decide

/-- Row 15. -/
theorem test_evCadIdle : seen (block 2 0 false true [(0x12, 0x00)]) = ⟨0x4200, 2, 7, 0, 1, []⟩ := by decide

/-- Row 16. -/
theorem test_evCadUnexpected :
    seen (block 2 0 false true ([(0x12, 0x08)] ++ modes)) = ⟨0x4208, 1, 7, 0, 18, [(.unexpectedIrq, [2, 8])]⟩ := by decide

/-- Row 17. -/
theorem test_evRxCrcerr :
    seen (block 3 0 false true ([(0x12, 0x60)] ++ modes)) = ⟨0x6260, 1, 7, 0, 17, [(.crcError, [0, 7])]⟩ := by decide

/-- Row 18. -/
theorem test_evRxHdrinv :
    seen (block 3 0 false false ([(0x12, 0x40)] ++ modes)) = ⟨0x6040, 3, 9, 0, 17, [(.headerInvalid, [0, 7])]⟩ := by
  decide

/-- Row 19, V-CAP-2. -/
theorem test_evRxDone :
    seen (block 3 0 false false ([(0x12, 0x50), (0x19, 0x00), (0x1A, 0x00), (0x13, 0x00), (0x10, 0x00)] ++ modes)) =
      ⟨0x7050, 3, 9, 0, 22, []⟩ := by decide

/-- Row 20. -/
theorem test_evRxTimeoutHop :
    seen (block 3 0 true false ([(0x12, 0x80)] ++ modes)) = ⟨0x6680, 1, 7, 1, 16, []⟩ := by decide

/-- Row 21. -/
theorem test_evRxTimeout : seen (block 3 0 false false ([(0x12, 0x80)] ++ modes)) = ⟨0x6080, 3, 9, 0, 17, []⟩ := by decide

/-- Row 22. -/
theorem test_evRxHdrseen : seen (block 3 0 false true [(0x12, 0x10)]) = ⟨0x6210, 3, 7, 0, 1, []⟩ := by decide

/-- Row 23. -/
theorem test_evRxTxreq :
    seen (staged (block 3 10000 false false [(0x12, 0x00)]) 50000) = ⟨0x6100, 4, 7, 0, 3, []⟩ := by decide

/-- Row 24. -/
theorem test_evRxSofttmo :
    seen (block 3 100001 true false ([(0x12, 0x00)] ++ modes)) = ⟨0x6E00, 1, 7, 1, 16, []⟩ := by decide

/-- Row 25. -/
theorem test_evRxIdle : seen (staged (block 3 0 true false [(0x12, 0x00)]) 9) = ⟨0x6700, 3, 7, 0, 1, []⟩ := by decide

/-- Row 26. -/
theorem test_evRxUnexpected :
    seen (block 3 0 false true ([(0x12, 0x04)] ++ modes)) = ⟨0x6204, 1, 7, 0, 18, [(.unexpectedIrq, [3, 4])]⟩ := by decide

/-- Row 27. -/
theorem test_evTxRun :
    seen (staged (block 4 9 false false ([(0x12, 0x00)] ++ modes)) 9) = ⟨0x8100, 5, 7, 0, 20, []⟩ := by decide

/-- Row 28. -/
theorem test_evTxNoreq :
    seen (block 4 0 false false ([(0x12, 0x00)] ++ modes)) = ⟨0x8000, 3, 9, 0, 18, [(.unexpectedIrq, [4, 0])]⟩ := by
  decide

/-- Row 29. -/
theorem test_evTxdDone : seen (block 5 0 false true ([(0x12, 0x08)] ++ modes)) = ⟨0xA208, 1, 7, 0, 17, []⟩ := by decide

/-- Row 30. -/
theorem test_evTxdTimeout :
    seen (block 5 7000001 false false ([(0x12, 0x00)] ++ modes)) =
      ⟨0xA800, 0, 7, 0, 7, [(.txdoneMissing, [7000001])]⟩ := by decide

/-- Row 31. -/
theorem test_evTxdWait : seen (block 5 7000000 false false [(0x12, 0x00)]) = ⟨0xA000, 5, 7, 0, 1, []⟩ := by decide

/-- Row 32. -/
theorem test_evTxdUnexpected :
    seen (block 5 0 false false ([(0x12, 0x40)] ++ modes)) = ⟨0xA040, 1, 7, 0, 17, [(.unexpectedIrq, [5, 0x40])]⟩ := by
  decide

/-- Row 33. -/
theorem test_evDefault :
    seen (block 6 0 false false ([(0x12, 0x00)] ++ modes)) = ⟨0xC000, 3, 9, 0, 18, [(.unexpectedIrq, [6, 0])]⟩ := by
  decide

/-- Row 8 after a wrap of the clock, V-TMO-10. -/
theorem test_rebaseline :
    seen ({ block 1 0x770 true false [(0x12, 0x00)] with doneTime := 0xFFFFF000 }) = ⟨0x2600, 1, 7, 0, 1, []⟩ := by decide

/-- V-SCH-12. -/
theorem test_dropOnMiss :
    seen { staged (block 3 5000 false false ([(0x12, 0x00)] ++ modes)) 10 with par := { params with dropOnMiss := true } } =
    ⟨0x6100, 3, 9, 0, 18, [(.txMissed, [10, 10, 5000])]⟩ := by decide

/-- Program P3, the resumed pass. -/
theorem test_resume :
    (after { staged (block 4 50000 false false modes) 50000 with passActive := true, txPhase := .released }).history.length = 17 ∧
    (after { staged (block 4 50000 false false modes) 50000 with passActive := true, txPhase := .released }).radioState = 5 := by
  decide

/-- A placed word is the first operation to run (log entry 3). -/
theorem test_placed :
    (after (State.reset.withFetchWord 16 0x3000)).ch = (State.reset.ch + 1) % State.reset.numChannels := rfl

/-! ## Witnesses: a state and operands that meet the hypotheses of each statement, clause by clause -/

/-- An idle block, before and after bring-up. -/
def idle : State := block 0 5 false false []

def fresh : State := unbooted ⟨9, 0, 0, 0⟩ [(0x42, 0x12)]

/-- A block with one input next. -/
def given (s : State) (x : Input) : State := { s with inbox := [x] }

theorem witness_DecodeInvertsEncode :
    (Instr.spiRead 0x7F).wf = true ∧ (Instr.spiBurstWrite 0x7F [0]).wf = true ∧ (Instr.irqEdge 2).wf = true ∧
      (Instr.evRxIdle 0x6700).wf = true ∧ (Instr.clockAdvance 0).wf = true := by decide

theorem witness_AcceptedFrameIsReEncoded :
    decode (.spi false [0x7F, 0x04]) = .ok (.spiRead 0x7F) ∧ decode (.op 0x25FF .empty) = .ok (.clearIrq 0xFF) ∧
      decode (.eval 0xFFFF) = .ok (.evDefault 0xFFFF) := by decide

theorem witness_DecodingIsUnambiguous :
    (∀ n : OpName, n.matches 0x8800 = false) ∧ OpName.matches .setDioMap 0x2703 = true ∧
      encode (.evInit 0x1FFF) = .eval 0x1FFF ∧ (Instr.evInit 0x1FFF).wf = true :=
  ⟨fun n => by cases n <;> rfl, by decide, by decide, by decide⟩

theorem witness_StepRunsDecodedOperation :
    (given idle (.frame .fsmEngine (.op 0x4100 .empty))).nextIs (.frame .fsmEngine (.op 0x4100 .empty)) [] ∧
      decode (.op 0x4100 .empty) = .ok .armScanner ∧ Instr.armScanner.wf = true ∧
      Agent.presents .fsmEngine .armScanner = true ∧ idle.halted = false ∧ idle.faults = [] ∧ idle.txPhase = .idle :=
  ⟨⟨rfl, rfl⟩, by decide⟩

theorem witness_StepRunsDecodedOperation_host :
    (given idle (.frame .host (.op 0x8300 .empty))).nextIs (.frame .host (.op 0x8300 .empty)) [] ∧
      decode (.op 0x8300 .empty) = .ok .readStats ∧ (Frame.op 0x8300 .empty).internal = false ∧
      Agent.presents .host .readStats = true :=
  ⟨⟨rfl, rfl⟩, by decide⟩

theorem witness_EngineTurnRunsBringupOrPass :
    (given fresh .engine).engineTurn [] ∧ fresh.halted = false ∧ fresh.faults = [] ∧ fresh.txPhase = .idle ∧
      fresh.booted = false ∧ idle.engineTurn [] ∧ idle.halted = false ∧ idle.faults = [] ∧ idle.txPhase = .idle ∧
      idle.booted = true ∧ idle.passActive = false :=
  ⟨⟨rfl, .inl rfl⟩, rfl, rfl, rfl, rfl, ⟨rfl, .inr ⟨rfl, rfl⟩⟩, rfl, rfl, rfl, rfl, rfl⟩

theorem witness_RefusedFramesChangeNothingElse :
    (given idle (.frame .host (.op 0x4000 .empty))).nextIs (.frame .host (.op 0x4000 .empty)) [] ∧
      (Frame.op 0x4000 .empty).internal = true ∧ Agent.host ≠ .fsmEngine ∧
      (given idle (.frame .host (.op 0x8003 .empty))).nextIs (.frame .host (.op 0x8003 .empty)) [] ∧
      (Frame.op 0x8003 .empty).internal = false ∧ decode (.op 0x8003 .empty) = .error .reservedBits ∧
      (given idle (.frame .chip (.op 0x8200 .empty))).nextIs (.frame .chip (.op 0x8200 .empty)) [] ∧
      (Frame.op 0x8200 .empty).internal = false ∧ decode (.op 0x8200 .empty) = .ok .takePacket ∧
      Agent.presents .chip .takePacket = false :=
  ⟨⟨rfl, rfl⟩, by decide, by decide, ⟨rfl, rfl⟩, by decide, by decide, ⟨rfl, rfl⟩, by decide, by decide, by decide⟩

theorem witness_BlockedEngineIssuesNoTransaction :
    (∀ i ∈ [Instr.takePacket], canWait i = true) ∧
      ({ idle with halted := true, waiting := [.takePacket] } : State).halted = true ∧
      (∃ t, step { idle with halted := true, waiting := [.takePacket] } = .next t) ∧
      ({ idle with booted := false, faults := [.cfg0Invalid] } : State).faults ≠ [] ∧
      (∃ t, step { idle with booted := false, faults := [.cfg0Invalid] } = .next t) ∧
      (∃ adj, ({ idle with txPhase := .waiting 9 } : State).txPhase = .waiting adj) ∧
      (∃ t, step { idle with txPhase := .waiting 9 } = .next t) :=
  ⟨by decide, rfl, ⟨_, rfl⟩, by simp, ⟨_, rfl⟩, ⟨9, rfl⟩, ⟨_, rfl⟩⟩

theorem witness_InterfaceIssuesNoTransaction :
    engineOnly .takePacket = false ∧ ∃ t, exec .takePacket idle = .next t := ⟨rfl, _, rfl⟩

theorem witness_ParametersAndRecordsArePreserved :
    (∃ t, exec .evalPass idle = .next t) ∧ (∀ d, Instr.evalPass ≠ .clockAdvance d) ∧
      ∃ t, exec (.reset ⟨7, 0, 0, 0⟩) idle = .next t := ⟨⟨_, rfl⟩, nofun, _, rfl⟩

theorem witness_ReadTakesQueuedAnswerOrFreeDraw :
    (block 0 0 false false [(0x42, 1), (0x12, 4)]).chipAnswers = [(0x42, 1)] ++ (0x12, 4) :: [] ∧
      (∀ p ∈ [((0x42, 1) : Byte × Byte)], p.1 ≠ 0x12) ∧
      (∀ p ∈ (block 0 0 false false [(0x42, 1)]).chipAnswers, p.1 ≠ 0x12) := ⟨rfl, by simp, by simp [block]⟩

theorem witness_AccessorMakesOneTransaction :
    (0x7F : Byte).toNat ≤ 0x7F ∧ 0x7F < (0x80 : Byte).toNat ∧ [(0 : Byte)] ≠ [] := by decide

theorem witness_ModelFaultIsOnlyRecorded : idle.faults.Nodup ∧ [FaultName.addrRange].Nodup := by decide

theorem witness_ReconfigurationNeedsStandby :
    (block 1 0 false true []).modeShadow ≠ .known .sleep ∧ (block 1 0 false true []).modeShadow ≠ .known .standby ∧
      7 ≤ (7 : Byte).toNat ∧ (12 : Byte).toNat ≤ 12 := by decide

theorem witness_SetFrequencyWritesFlooredWord :
    idle.modeShadow = .known .standby ∧ ({ idle with modeShadow := .known .sleep } : State).modeShadow = .known .sleep ∧
      (1023999999 : BitVec 32).toNat < 1024000000 ∧ 1024000000 ≤ (1024000000 : BitVec 32).toNat := by decide

theorem witness_FrequencyRoundTrip :
    idle.modeShadow = .known .standby ∧ (868100000 : BitVec 32).toNat < 1024000000 ∧
      (868100000 : BitVec 32).toNat = 868100000 := by decide

theorem witness_SetRateWritesFourRegisters :
    idle.modeShadow = .known .standby ∧ ((10 : Byte), idle.par.rateCrc.a.sf10, idle.par.symbTimeoutLong.a) ∈
      [((7 : Byte), idle.par.rateCrc.a.sf7, idle.par.symbTimeoutShort.a),
        (10, idle.par.rateCrc.a.sf10, idle.par.symbTimeoutLong.a)] := ⟨rfl, by simp⟩

theorem witness_SetRateRejectsSfOutOfRange :
    ¬(7 ≤ (6 : Byte).toNat ∧ (6 : Byte).toNat ≤ 12) ∧ ¬(7 ≤ (13 : Byte).toNat ∧ (13 : Byte).toNat ≤ 12) := by decide

theorem witness_SetPowerWritesClampedPower : idle.modeShadow = .known .standby := by decide

theorem witness_SetPowerIsIdempotentUnderClamp :
    (15 : Byte).toInt = min (max (16 : Byte).toInt 2) 15 ∧ (2 : Byte).toInt = min (max (0x80 : Byte).toInt 2) 15 := by
  decide

theorem witness_CheckChipIdHaltsOnMismatch :
    fresh.regValue .version = 0x12 ∧ 0x12 = PerVariant.pick fresh.par.expectedChipId fresh.par.variant ∧
      (unbooted ⟨9, 0, 0, 0⟩ [(0x42, 0)]).regValue .version = 0 ∧
      0 ≠ PerVariant.pick fresh.par.expectedChipId fresh.par.variant := by decide

/-- A run of one operation, over and over. -/
def repeated (i : Instr) (s : State) : Nat → State
  | 0 => s
  | n + 1 => ran i (repeated i s n)

theorem witness_AdvanceChannelIsCyclic :
    (∀ k, exec .advanceChannel (repeated .advanceChannel idle k) = .next (repeated .advanceChannel idle (k + 1))) ∧
      idle.ch < idle.numChannels := ⟨fun _ => rfl, by decide⟩

theorem witness_SoftTimeoutConditions :
    (block 1 5000 true false []).eventTime ≤ (block 1 5000 true false []).clock ∧ (block 1 5000 true false []).sf = 7 ∧
      (block 1 5000 true false []).tmo = false ∧ (block 1 5001 true false []).tmo = true ∧
      (block 2 5000 true false []).tmo = false ∧ (block 2 5001 true false []).tmo = true ∧
      (block 3 100000 true false []).tmo = false ∧ (block 3 100001 true false []).tmo = true ∧
      (block 5 7000000 false false []).tmo = false ∧ (block 5 7000001 false false []).tmo = true ∧
      (block 0 0xFFFFFFFF true false []).tmo = false := by decide

theorem witness_ChannelIsPinnedWithoutHopping : idle.cfgHop = false ∧ ∃ t, exec .evalPass idle = .next t := ⟨rfl, _, rfl⟩

theorem staged_keyable : (staged idle 5).keyable :=
  ⟨by decide, by decide, Nat.le_add_left 1 _⟩

theorem witness_EvalPassRunsTheSelectedRow :
    (staged idle 5).halted = false ∧ (staged idle 5).booted = true ∧ (staged idle 5).passActive = false ∧
      (staged idle 5).faults = [] ∧ (staged idle 5).outValid = true ∧ (staged idle 5).keyable :=
  ⟨rfl, rfl, rfl, rfl, rfl, staged_keyable⟩

theorem witness_EvalPassNeedsItsPrecondition :
    ({ idle with halted := true } : State).halted = true ∧ ({ idle with faults := [.addrRange] } : State).faults ≠ [] ∧
      fresh.booted = false ∧ ({ idle with passActive := true } : State).passActive = true := by decide

theorem witness_ArmScannerSequence : 7 ≤ idle.sf.toNat ∧ idle.sf.toNat ≤ 12 := by decide

theorem witness_ListenForceScanRecover :
    (block 1 0 true false []).cfgHop = true ∧ (block 1 0 false true []).cfgCad = true ∧
      idle.cfgHop = false ∧ idle.cfgCad = false := by decide

theorem witness_KeyTxSequence : (staged idle 5).keyable := staged_keyable

theorem witness_TransmitRowsWaitKeyOrDrop :
    (staged idle 5).keyable ∧ (staged idle 5).timeLeft 5 9 = 0 ∧
      0 < (staged idle 6).timeLeft 6 9 ∧
      (staged idle 4).timeLeft 4 9 < 0 := ⟨staged_keyable, by decide⟩

/-- The idle block meets the invariant, and so does one that holds a request. -/
theorem idle_legal : idle.Legal where
  schedule := ⟨by decide, by decide⟩
  control := ⟨by decide, by decide, by decide, by decide, by decide⟩
  sf := ⟨by decide, by decide⟩
  config := ⟨by decide, fun _ => ⟨by decide, ⟨by decide, by decide⟩, by decide, by decide⟩⟩
  slots := ⟨fun h => absurd h (by decide), by decide, List.length_replicate, by decide, by decide, by decide⟩
  widths := ⟨⟨by decide, by decide, by decide, by decide, by decide, nofun, nofun⟩, by decide, by decide, by decide⟩
  mode := ⟨by decide, by decide, by decide⟩
  faults := ⟨by decide, by decide⟩

theorem witness_TransitionsAreTheTabledOnes :
    idle.Legal ∧ idle.booted = true ∧ idle.faults = [] ∧ idle.txPhase = .idle ∧ ∃ t, exec .evalPass idle = .next t :=
  ⟨idle_legal, rfl, rfl, rfl, _, rfl⟩

theorem witness_WaitUntilOutcomes :
    idle.timeLeft 4 9 = -1 ∧ idle.timeLeft 5 9 = 0 ∧ idle.timeLeft 6 9 = 1 := by decide

theorem witness_ClockAdvanceMovesAndReleases :
    0x7FFFFFFF < 2 ^ (idle.par.timeBits - 1) ∧ 2 ^ (idle.par.timeBits - 1) ≤ 0x80000000 ∧
      (given idle (.frame .host (.op 0x8700 (.tick 1)))).nextIs (.frame .host (.op 0x8700 (.tick 1))) [] ∧
      Agent.host ≠ .clock := ⟨by decide, by decide, ⟨rfl, rfl⟩, by decide⟩

theorem witness_WaitIsReleasedAtItsTarget :
    let s : State := { idle with txPhase := .waiting 8 }
    (repeated (.clockAdvance 1) s 0).txPhase = .waiting 8 ∧ 0 < (repeated (.clockAdvance 1) s 0).distanceTo 8 ∧
      1 < 2 ^ (idle.par.timeBits - 1) ∧
      ∀ k, exec (.clockAdvance 1) (repeated (.clockAdvance 1) s k) = .next (repeated (.clockAdvance 1) s (k + 1)) :=
  ⟨rfl, by decide, by decide, fun _ => rfl⟩

theorem witness_ReleasedPassKeysTransmitter :
    let s : State := { staged idle 5 with passActive := true, radioState := 4, txPhase := .released }
    s.engineTurn [] ∧ s.txPhase = .released ∧ s.halted = false ∧ s.faults = [] ∧ s.keyable :=
  ⟨⟨rfl, .inr ⟨rfl, rfl⟩⟩, rfl, rfl, rfl, staged_keyable⟩

theorem witness_CapturePacketFillsSlot : 0 < 1 ∧ 127 < 128 := by decide

theorem witness_IrqEdgeSetsPending :
    (1 : BitVec 2).toNat < 2 ∧ (2 : BitVec 2).toNat = 2 ∧
      ({ idle with par := { params with threeIrqLines := true } } : State).par.threeIrqLines = true ∧
      (3 : BitVec 2).toNat = 3 ∧ idle.par.threeIrqLines = false := by decide

theorem idle_hostTurn : idle.hostTurn := ⟨rfl, rfl, .inl rfl⟩

theorem staged_hostTurn : (staged idle 5).hostTurn := ⟨rfl, rfl, .inl rfl⟩

theorem witness_SubmitTxStagesRequest :
    idle.hostTurn ∧ idle.halted = false ∧ idle.outValid = false ∧ (staged idle 5).hostTurn ∧
      (staged idle 5).outValid = true ∧ ({ request 5 with payload := [] } : OutboundRequest).payload.length < 1 ∧
      idle.par.maxTxLen.toNat < ({ request 5 with payload := List.replicate 256 0 } : OutboundRequest).payload.length ∧
      1 ≤ (request 5).payload.length ∧
      ({ request 5 with payload := List.replicate 255 0 } : OutboundRequest).payload.length ≤ idle.par.maxTxLen.toNat ∧
      (request 5).freq.toNat < 1024000000 :=
  ⟨idle_hostTurn, rfl, rfl, staged_hostTurn, rfl, by decide,
    (show idle.par.maxTxLen.toNat < 256 by decide).trans_eq List.length_replicate.symm, by decide,
    List.length_replicate.trans_le (show 255 ≤ idle.par.maxTxLen.toNat by decide), by decide⟩

theorem witness_TakePacketHandsOver :
    idle.hostTurn ∧ idle.halted = false ∧ idle.inValid = false ∧ ({ idle with inValid := true } : State).inValid = true :=
  ⟨idle_hostTurn, rfl, rfl, rfl⟩

theorem witness_ReadsGiveCountersAndSnapshot :
    idle.passActive = false ∧ idle.faults = [] ∧ fresh.passActive = false ∧ fresh.booted = false := by decide

theorem witness_ConfigureTakesRecord :
    idle.hostTurn ∧ idle.halted = false ∧ (2 : Nat) < idle.numChannels ∧ idle.numChannels ≤ 3 ∧
      ({ idle with radioState := 5 } : State).radioState = 5 := ⟨idle_hostTurn, by decide⟩

theorem witness_HostOperationsRefusedOrWaiting :
    ({ fresh with halted := true } : State).hostTurn ∧ ({ fresh with halted := true } : State).halted = true ∧
      canWait .readStats = true ∧ ({ idle with passActive := true } : State).passActive = true ∧
      ({ idle with faults := [.addrRange] } : State).faults ≠ [] ∧ Instr.takePacket ≠ .readStats ∧
      fresh.booted = false ∧ fresh.halted = false := ⟨⟨rfl, rfl, .inr rfl⟩, by decide⟩

theorem witness_HostOperationsRefusedOrWaiting_run :
    ({ fresh with waiting := [.takePacket, .readStats] } : State).waiting = [.takePacket] ++ .readStats :: [] ∧
      (∀ j ∈ [Instr.takePacket], canWait j = true ∧ ¬fresh.enabledNow j) ∧ canWait .readStats = true ∧
      fresh.enabledNow .readStats := by
  refine ⟨rfl, ?_, rfl, .inr ⟨rfl, rfl, rfl⟩⟩
  rintro j (_ | ⟨_, ⟨⟩⟩)
  exact ⟨rfl, by simp [State.enabledNow, State.hostTurn, fresh, unbooted, block]⟩

theorem witness_BringupBootsOrHalts :
    fresh.booted = false ∧ fresh.halted = false ∧ fresh.faults = [] ∧ (configValid fresh.numChannels fresh.cfg0) = true ∧
      fresh.regValue .version = PerVariant.pick fresh.par.expectedChipId fresh.par.variant ∧
      (unbooted ⟨9, 0, 0, 0⟩ [(0x42, 0)]).regValue .version ≠
        PerVariant.pick fresh.par.expectedChipId fresh.par.variant ∧
      configValid fresh.numChannels (unbooted ⟨13, 0, 0, 0⟩ []).cfg0 = false := by decide

theorem witness_StepKeepsLegal : idle.Legal ∧ ∃ t, step idle = .next t := ⟨idle_legal, _, rfl⟩

end Sys2Proof.Tests
end

section
/-! PROOF. What no operation changes: the parameters, the clock (but for CLOCK_ADVANCE), the event history as far as it has
grown, and the model faults (rules R6, R40, R41, R70). One lemma per named operation says that it keeps these records; the
sequences, the rows, the pass and bring-up are chains of them. -/

namespace Sys2Proof.Machine

open Sys2Proof

/-! ## The relation -/

/-- `t` keeps the records of `s`: its parameters and its clock, its event history, which `t` may have
appended to, and its model faults. -/
structure State.KeepsRecords (s t : State) : Prop where
  par : t.par = s.par
  clock : t.clock = s.clock
  history : s.history <+: t.history
  faults : s.faults ⊆ t.faults

/-- A result of a sequence that can fault keeps the records of `s` where it did not fault. -/
def State.OkKeepsRecords (s : State) (r : Except FaultName State) : Prop := ∀ t, r = .ok t → s.KeepsRecords t

namespace State.KeepsRecords

variable {s t u : State}

theorem refl (s : State) : s.KeepsRecords s := ⟨rfl, rfl, List.prefix_rfl, List.Subset.refl _⟩

theorem trans (h : s.KeepsRecords t) (g : t.KeepsRecords u) : s.KeepsRecords u :=
  ⟨g.par.trans h.par, g.clock.trans h.clock, h.history.trans g.history, List.Subset.trans h.faults g.faults⟩

/-- An update that appends transactions to the history, if any, and leaves the other records alone. -/
theorem of_append {events : List SpiEvent} (hh : t.history = s.history ++ events) (hp : t.par = s.par := by simp)
    (hc : t.clock = s.clock := by simp) (hf : t.faults = s.faults := by simp) : s.KeepsRecords t :=
  ⟨hp, hc, ⟨events, hh.symm⟩, hf ▸ List.Subset.refl _⟩

/-- An update without a bus transaction that leaves the other records alone. -/
theorem of_history_eq (hh : t.history = s.history) (hp : t.par = s.par := by simp) (hc : t.clock = s.clock := by simp)
    (hf : t.faults = s.faults := by simp) : s.KeepsRecords t :=
  of_append (events := []) (by simp [hh]) hp hc hf

/-- The state that a step answers keeps the records. -/
theorem of_next (h : s.KeepsRecords u) (e : (.next u : Host.Outcome State Fault Refusal) = .next t) : s.KeepsRecords t := by
  cases e
  exact h

/-- Where either of two states may follow, both keep the records. -/
theorem ite {c : Prop} [Decidable c] (h : s.KeepsRecords t) (g : s.KeepsRecords u) :
    s.KeepsRecords (if c then t else u) := by
  split
  · exact h
  · exact g

/-! ## Updates without a bus transaction -/

theorem setSf (h : s.KeepsRecords t) (v : BitVec 4) : s.KeepsRecords (t.setSf v) := h.trans (of_history_eq rfl)

theorem setState (h : s.KeepsRecords t) (st : BitVec 3) : s.KeepsRecords (t.setState st) := h.trans (of_history_eq rfl)

theorem consume (h : s.KeepsRecords t) : s.KeepsRecords t.consume := h.trans (of_history_eq rfl)

theorem setPhase (h : s.KeepsRecords t) (p : TxPhase) : s.KeepsRecords (t.setPhase p) := h.trans (of_history_eq rfl)

theorem stampNow (h : s.KeepsRecords t) : s.KeepsRecords t.stampNow := h.trans (of_history_eq rfl)

theorem stampEvent (h : s.KeepsRecords t) (flags : Byte) : s.KeepsRecords (t.stampEvent flags) :=
  h.trans (of_history_eq rfl)

theorem rebaseline (h : s.KeepsRecords t) : s.KeepsRecords t.rebaseline := h.trans (of_history_eq rfl)

theorem startPass (h : s.KeepsRecords t) : s.KeepsRecords t.startPass := h.trans (of_history_eq rfl)

theorem endPass (h : s.KeepsRecords t) : s.KeepsRecords t.endPass := h.trans (of_history_eq rfl)

theorem logEntry (h : s.KeepsRecords t) (code : LogCode) (info : List Nat) : s.KeepsRecords (t.logEntry code info) :=
  h.trans (of_history_eq rfl)

theorem logged (h : s.KeepsRecords t) (code : LogCode) (info : List Nat) : s.KeepsRecords (t.logged code info) :=
  h.logEntry code info

theorem refuse (h : s.KeepsRecords t) (c : RefuseCode) : s.KeepsRecords (t.refuse c) := h.trans (of_history_eq rfl)

theorem answer (h : s.KeepsRecords t) (r : OpResult) : s.KeepsRecords (t.answer r) := h.trans (of_history_eq rfl)

theorem park (h : s.KeepsRecords t) (i : Instr) : s.KeepsRecords (t.park i) := h.trans (of_history_eq rfl)

theorem countSent (h : s.KeepsRecords t) : s.KeepsRecords t.countSent := h.trans (of_history_eq rfl)

theorem countRejected (h : s.KeepsRecords t) : s.KeepsRecords t.countRejected := h.trans (of_history_eq rfl)

theorem advanceChannel (h : s.KeepsRecords t) : s.KeepsRecords t.advanceChannel := h.trans (of_history_eq rfl)

theorem hopped (h : s.KeepsRecords t) : s.KeepsRecords t.hopped := h.advanceChannel

/-- A reset leaves the event history, the model faults, the clock and the parameters (rule R371; log entry 13). -/
theorem applyReset (h : s.KeepsRecords t) (c : CfgRecord) : s.KeepsRecords (t.applyReset c) :=
  h.trans (of_history_eq rfl rfl rfl rfl)

/-- A model fault is recorded beside those that are there (rule R346). -/
theorem raiseFault (h : s.KeepsRecords t) (f : FaultName) : s.KeepsRecords (t.raiseFault f) := by
  refine h.trans ⟨rfl, rfl, List.prefix_rfl, ?_⟩
  rw [State.raiseFault_faults]
  split
  · exact List.Subset.refl _
  · exact List.subset_append_left _ _

/-! ## Bus transactions -/

theorem busRead (h : s.KeepsRecords t) (a : Byte) : s.KeepsRecords (t.busRead a) :=
  h.trans (of_append (t.busRead_history a))

theorem busWrite (h : s.KeepsRecords t) (a v : Byte) : s.KeepsRecords (t.busWrite a v) :=
  h.trans (of_append (t.busWrite_history a v))

theorem busBurst (h : s.KeepsRecords t) (a : Byte) (data : List Byte) : s.KeepsRecords (t.busBurst a data) :=
  h.trans (of_append (t.busBurst_history a data))

theorem readReg (h : s.KeepsRecords t) (r : Reg) : s.KeepsRecords (t.readReg r) := h.busRead _

theorem writeReg (h : s.KeepsRecords t) (r : Reg) (v : Byte) : s.KeepsRecords (t.writeReg r v) := h.busWrite _ _

theorem andWrote (h : s.KeepsRecords t) (r : Reg) (v : Byte) : s.KeepsRecords (t.andWrote r v) :=
  h.trans (of_append (t.andWrote_history r v))

theorem clearIrq (h : s.KeepsRecords t) (bits : Byte) : s.KeepsRecords (t.clearIrq bits) := h.writeReg _ _

theorem setIrqMask (h : s.KeepsRecords t) (mask : Byte) : s.KeepsRecords (t.setIrqMask mask) := h.writeReg _ _

theorem setIq (h : s.KeepsRecords t) (invert : Bool) : s.KeepsRecords (t.setIq invert) := h.writeReg _ _

theorem setDioMap (h : s.KeepsRecords t) (k : DioKind) : s.KeepsRecords (t.setDioMap k) := h.writeReg _ _

theorem setOpMode (h : s.KeepsRecords t) (m : Mode) : s.KeepsRecords (t.setOpMode m) :=
  h.trans (of_append (t.setOpMode_history m))

theorem writeFrequencyWord (h : s.KeepsRecords t) (frf : Nat) : s.KeepsRecords (t.writeFrequencyWord frf) :=
  ((h.writeReg _ _).writeReg _ _).writeReg _ _

theorem writeRate (h : s.KeepsRecords t) (sf : Byte) (crc : Bool) : s.KeepsRecords (t.writeRate sf crc) :=
  (((h.writeReg _ _).writeReg _ _).writeReg _ _).writeReg _ _

theorem loadTxHeader (h : s.KeepsRecords t) : s.KeepsRecords t.loadTxHeader :=
  ((h.setIq _).writeReg _ _).writeReg _ _

theorem txPrepare (h : s.KeepsRecords t) : s.KeepsRecords t.txPrepare := (h.clearIrq _).setIrqMask _

/-- A mismatch of the identity halts the block and is logged behind the read (rule R158). -/
theorem checkChipId (h : s.KeepsRecords t) : s.KeepsRecords t.checkChipId := by
  unfold State.checkChipId
  split
  · exact h.readReg _
  · exact ((h.readReg .version).trans (u := { t.readReg .version with halted := true }) (of_history_eq rfl)).logEntry _ _

/-! ## Sequences in closed form -/

theorem scannerArmed (h : s.KeepsRecords t) : s.KeepsRecords t.scannerArmed := h.trans (of_append t.scannerArmed_history)

theorem receiverArmed (h : s.KeepsRecords t) : s.KeepsRecords t.receiverArmed := h.trans (of_append t.receiverArmed_history)

theorem restarted (h : s.KeepsRecords t) : s.KeepsRecords t.restarted :=
  h.trans (of_append (t.restarted_history.trans (by rw [List.append_assoc, List.append_assoc])))

theorem scanning (h : s.KeepsRecords t) : s.KeepsRecords t.scanning := ((h.setSf _).scannerArmed).setState _

theorem listening (h : s.KeepsRecords t) : s.KeepsRecords t.listening := by
  unfold State.listening
  split
  · exact h.scanning
  · exact h.receiverArmed.setState _

theorem recovered (h : s.KeepsRecords t) (k : BitVec 16) : s.KeepsRecords (t.recovered k) :=
  (((h.logged _ _).andWrote _ _).andWrote _ _).listening

theorem armRxSingle (h : s.KeepsRecords t) : s.KeepsRecords t.armRxSingle :=
  have stored : s.KeepsRecords (t.setDioMap .rx).captureRssi :=
    (h.setDioMap .rx).trans (of_append (State.captureRssi_history _))
  (((stored.clearIrq _).setIrqMask _).setOpMode _).stampNow

theorem singleArmed (h : s.KeepsRecords t) : s.KeepsRecords t.singleArmed := armRxSingle_eq t ▸ h.armRxSingle

theorem captured (h : s.KeepsRecords t) : s.KeepsRecords t.captured :=
  h.trans (of_append (List.append_assoc _ _ _) rfl rfl rfl)

theorem broughtUp (h : s.KeepsRecords t) : s.KeepsRecords t.broughtUp :=
  h.trans (of_append (List.append_assoc _ _ _) rfl rfl rfl)

/-- A missed window is logged and a wait ahead suspends the pass: neither is a bus transaction (rule R280). -/
theorem waitUntil (h : s.KeepsRecords t) (target : Nat) (sf : Byte) : s.KeepsRecords (t.waitUntil target sf) := by
  unfold State.waitUntil
  split
  · exact h.logEntry _ _
  · exact h
  · exact h.setPhase _

/-- The state in which the row of a pass runs: the snapshot's read and, where the key needs it, the RSSI's (rules
R190, R192). -/
theorem passReady (h : s.KeepsRecords t) : s.KeepsRecords t.passReady := by
  have sampled : s.KeepsRecords t.passSampled := (h.startPass.readReg _).rebaseline
  unfold State.passReady State.secondaryStep
  split
  · exact (sampled.readReg _).stampEvent _
  · exact sampled.stampEvent _

end State.KeepsRecords

/-! ## Sequences that can fault -/

namespace State.OkKeepsRecords

variable {s t : State} {r : Except FaultName State}

theorem ok (h : s.KeepsRecords t) : s.OkKeepsRecords (.ok t) := by
  rintro u ⟨⟩
  exact h

theorem error (f : FaultName) : s.OkKeepsRecords (.error f) := by
  intro t h
  cases h

/-- A sequence goes on from the state that its first part leaves. -/
theorem bind {k : State → Except FaultName State} (hr : s.OkKeepsRecords r)
    (hk : ∀ u, s.KeepsRecords u → s.OkKeepsRecords (k u)) : s.OkKeepsRecords (r >>= k) := by
  cases r with
  | error f => exact error f
  | ok u => exact hk u (hr u rfl)

theorem map {g : State → State} (hr : s.OkKeepsRecords r) (hg : ∀ u, s.KeepsRecords u → s.KeepsRecords (g u)) :
    s.OkKeepsRecords (r.map g) := by
  cases r with
  | error f => exact error f
  | ok u => exact ok (hg u (hr u rfl))

/-- The end of a step keeps the records: of its result where it has one, else of the state before it (rule R346). -/
theorem settle (hr : s.OkKeepsRecords r) : s.KeepsRecords (s.settle r) := by
  cases r with
  | error f => exact (State.KeepsRecords.refl s).raiseFault f
  | ok u => exact hr u rfl

end State.OkKeepsRecords

section

open State.OkKeepsRecords (ok error)

variable {s t : State}

/-- SPI_READ's state, with the byte read as its result (rule R130). -/
theorem spiRead_keepsRecords (s : State) (a : Byte) :
    s.OkKeepsRecords ((spiRead a s).map fun p => p.2.answer (.byte p.1)) := by
  unfold spiRead
  split
  · exact error _
  · exact ok (((State.KeepsRecords.refl s).busRead _).answer _)

theorem spiWrite_keepsRecords (s : State) (a v : Byte) : s.OkKeepsRecords (spiWrite a v s) := by
  unfold spiWrite
  split
  · exact error _
  · exact ok ((State.KeepsRecords.refl s).busWrite _ _)

theorem spiBurst_keepsRecords (h : s.KeepsRecords t) (a : Byte) (data : List Byte) :
    s.OkKeepsRecords (spiBurst a data t) := by
  unfold spiBurst
  split
  · exact error _
  · split
    · exact error _
    · exact ok (h.busBurst _ _)

theorem setFrequency_keepsRecords (h : s.KeepsRecords t) (hz : BitVec 32) : s.OkKeepsRecords (setFrequency hz t) := by
  rw [setFrequency_eq]
  split
  · split
    · exact ok (h.writeFrequencyWord _)
    · exact error _
  · exact error _

theorem setRate_keepsRecords (h : s.KeepsRecords t) (sf : Byte) (crc : Bool) : s.OkKeepsRecords (setRate sf crc t) := by
  rw [setRate_eq]
  split
  · split
    · exact ok (h.writeRate _ _)
    · exact error _
  · exact ok (h.logEntry _ _)

theorem setPower_keepsRecords (h : s.KeepsRecords t) (p : Byte) : s.OkKeepsRecords (setPower p t) := by
  rw [setPower_eq]
  split
  · exact ok (h.writeReg _ _)
  · exact error _

/-- KEY_TX, for every request: one that cannot be keyed faults (rule R205). -/
theorem keyTx_keepsRecords (h : s.KeepsRecords t) : s.OkKeepsRecords (keyTx t) :=
  (setFrequency_keepsRecords (h.setOpMode _) _).bind fun _ hf =>
    (setRate_keepsRecords hf _ _).bind fun _ hr =>
      (setPower_keepsRecords hr _).bind fun _ hp =>
        (spiBurst_keepsRecords hp.loadTxHeader _ _).bind fun _ hb => ok ((hb.setDioMap _).setOpMode _).stampNow

theorem txKey_keepsRecords (h : s.KeepsRecords t) : s.OkKeepsRecords (txKey t) :=
  (keyTx_keepsRecords h).bind fun _ hk => ok (hk.consume.setState _)

/-- A transmission, for every request: suspended, keyed or discarded (rule R260). -/
theorem txRun_keepsRecords (h : s.KeepsRecords t) : s.OkKeepsRecords (txRun t) := by
  have waited := h.txPrepare.waitUntil t.outbound.target t.outbound.sf
  simp only [txRun]
  split
  · exact ok waited
  · exact txKey_keepsRecords waited
  · split
    · rw [txDrop_eq]
      exact ok waited.consume.listening
    · exact txKey_keepsRecords waited

/-! ## Rows, the pass and bring-up -/

/-- What a row that does not transmit leaves. -/
theorem rowOutcome_keepsRecords (row : Row) (k : BitVec 16) (h : rowTransmits row = false) :
    s.KeepsRecords (rowOutcome row k s) := by
  have r := State.KeepsRecords.refl s
  cases row
  case scanTxreq | cadTxreq | rxTxreq | txRun => cases h
  case init => exact ((r.andWrote _ _).andWrote _ _).scanning
  case scanDetect | cadDetect => exact r.singleArmed.setState _
  case scanPromote => exact r.scannerArmed.setState _
  case scanDoneHop | scanSofthop => exact r.hopped.scannerArmed
  case scanStay => exact r.scannerArmed
  case scanIdle | cadIdle | rxHdrseen | rxIdle | txdWait => exact r
  case scanUnexpected | cadUnexpected | rxUnexpected | txNoreq | default => exact r.recovered k
  case cadNextSf => exact (r.setSf _).scannerArmed
  case cadExhausted => exact r.scanning
  case cadSofthop => exact r.hopped.scannerArmed.setState _
  case rxCrcerr | rxHdrinv => exact ((r.logEntry _ _).countRejected.clearIrq _).listening
  case rxDone => exact (r.captured.andWrote _ _).listening
  case rxTimeoutHop | rxSofttmo => exact r.hopped.listening
  case rxTimeout => exact (r.andWrote _ _).listening
  case txdDone => exact (r.countSent.clearIrq _).listening
  case txdTimeout => exact (r.logged _ _).restarted
  case txdUnexpected => exact ((r.logged _ _).andWrote _ _).scanning

/-- Everything that a row can do keeps the records, with any request held. -/
theorem runRow_keepsRecords (row : Row) (k : BitVec 16) (s : State) : s.OkKeepsRecords (runRow row k s) := by
  have r := State.KeepsRecords.refl s
  by_cases ht : rowTransmits row = true
  · cases row
    case scanTxreq | cadTxreq | rxTxreq => exact txRun_keepsRecords (r.setState _)
    case txRun => exact txRun_keepsRecords r
    all_goals cases ht
  · rw [runRow_eq row k s (absurd · ht)]
    exact ok (rowOutcome_keepsRecords row k (by simpa using ht))

theorem evalPass_keepsRecords (s : State) : s.OkKeepsRecords (evalPass s) := by
  have row : s.OkKeepsRecords (runRow (decodeKey s.passKey) s.passKey s.passReady) := fun t ht =>
    (State.KeepsRecords.refl s).passReady.trans (runRow_keepsRecords _ _ _ t ht)
  exact row.map fun _ hu => hu.endPass

theorem bringup_keepsRecords (s : State) : s.OkKeepsRecords (bringup s) := by
  have r := State.KeepsRecords.refl s
  unfold bringup
  split
  · exact error _
  · split
    next hm => exact bringupConfigure_eq s hm ▸ ok r.broughtUp
    next => exact ok r.checkChipId

/-- An EVAL operation runs its row to the end of the pass. -/
theorem exec_row_keepsRecords (row : Row) {k : BitVec 16} (h : exec (row.instr k) s = .next t) : s.KeepsRecords t := by
  have e : exec (row.instr k) s = .next (s.runToEnd (runRow row k s)) := by cases row <;> rfl
  exact ((runRow_keepsRecords row k s).map fun _ hu => hu.endPass).settle.of_next (e ▸ h)

/-! ## The host's operations -/

theorem submitTx_keepsRecords (s : State) (req : OutboundRequest) : s.KeepsRecords (s.submitTx req) := by
  have r := State.KeepsRecords.refl s
  unfold State.submitTx
  split_ifs
  · exact r.refuse _
  · exact (r.logEntry _ _).answer _
  · exact (r.logEntry _ _).answer _
  · exact .of_history_eq rfl

theorem takePacket_keepsRecords (s : State) : s.KeepsRecords s.takePacket := by
  unfold State.takePacket
  split_ifs
  · exact (State.KeepsRecords.refl s).refuse _
  · exact .of_history_eq rfl
  · exact (State.KeepsRecords.refl s).answer _

theorem configure_keepsRecords (s : State) (c : CfgRecord) : s.KeepsRecords (s.configure c) := by
  have r := State.KeepsRecords.refl s
  unfold State.configure
  split_ifs
  · exact r.refuse _
  · exact (r.logEntry _ _).answer _
  · exact .of_history_eq rfl

theorem execIrqEdge_keepsRecords {line : BitVec 2} (h : execIrqEdge line s = .next t) : s.KeepsRecords t := by
  have latched : s.KeepsRecords ({ s with pending := true }.answer .none) := .of_history_eq rfl
  exact (((State.KeepsRecords.refl s).refuse .badOp).ite latched).of_next h

/-! ## The scheduler -/

theorem execWaitUntil_keepsRecords {target : Nat} {sf : Byte} (h : execWaitUntil target sf s = .next t) :
    s.KeepsRecords t := by
  have waited := (State.KeepsRecords.refl s).waitUntil target sf
  refine State.KeepsRecords.of_next ?_ h
  split
  · exact waited.answer _
  · exact waited.answer _
  · exact waited.trans (.of_history_eq rfl)

/-! ## All operations -/

/-- Every operation but CLOCK_ADVANCE keeps the records. -/
theorem exec_keepsRecords {i : Instr} (hi : ∀ d, i ≠ .clockAdvance d) (h : exec i s = .next t) : s.KeepsRecords t := by
  have r := State.KeepsRecords.refl s
  cases i with
  | clockAdvance d => exact absurd rfl (hi d)
  | spiRead a => exact (spiRead_keepsRecords s a).settle.of_next h
  | spiWrite a v => exact (spiWrite_keepsRecords s a v).settle.of_next h
  | spiBurstWrite a data => exact (spiBurst_keepsRecords r a data).settle.of_next h
  | setFrequency hz => exact (setFrequency_keepsRecords r hz).settle.of_next h
  | setRate crc sf => exact (setRate_keepsRecords r sf crc).settle.of_next h
  | setPower p => exact (setPower_keepsRecords r p).settle.of_next h
  | setOpmode m => exact (r.setOpMode m).of_next h
  | setIq invert => exact (r.setIq invert).of_next h
  | clearIrq bits => exact (r.clearIrq bits).of_next h
  | setIrqMask mask => exact (r.setIrqMask mask).of_next h
  | setDioMap k => exact (r.setDioMap k).of_next h
  | checkChipId => exact (r.checkChipId.answer _).of_next h
  | advanceChannel => exact r.advanceChannel.of_next h
  | evalPass => exact ((evalPass_keepsRecords s).settle.ite r).of_next h
  | armScanner => exact (armScanner_eq s ▸ ok r.scannerArmed).settle.of_next h
  | armRxSingle => exact r.armRxSingle.of_next h
  | armRxCont => exact (armRxCont_eq s ▸ ok r.receiverArmed).settle.of_next h
  | armListen => exact (armListen_eq s ▸ ok r.listening).settle.of_next h
  | keyTx => exact (keyTx_keepsRecords r).settle.of_next h
  | recover => exact (recover_eq s ▸ ok ((r.andWrote _ _).andWrote _ _).listening).settle.of_next h
  | restart => exact (restart_eq s ▸ r.restarted).of_next h
  | forceScan => exact (forceScan_eq s ▸ ok r.scanning).settle.of_next h
  | bringup => exact ((bringup_keepsRecords s).settle.ite r).of_next h
  | waitUntil target sf => exact execWaitUntil_keepsRecords h
  | capturePacket => exact (capturePacket_eq s ▸ r.captured).of_next h
  | irqEdge line => exact execIrqEdge_keepsRecords h
  | submitTx req => exact ((submitTx_keepsRecords s req).ite (r.park _)).of_next h
  | takePacket => exact ((takePacket_keepsRecords s).ite (r.park _)).of_next h
  | readStats => exact ((r.answer _).ite (r.park _)).of_next h
  | configure cfg => exact ((configure_keepsRecords s cfg).ite (r.park _)).of_next h
  | readState => exact (r.answer _).of_next h
  | reset cfg0 => exact ((r.applyReset cfg0).answer _).of_next h
  | evInit key => exact exec_row_keepsRecords .init h
  | evScanDetect key => exact exec_row_keepsRecords .scanDetect h
  | evScanPromote key => exact exec_row_keepsRecords .scanPromote h
  | evScanDoneHop key => exact exec_row_keepsRecords .scanDoneHop h
  | evScanStay key => exact exec_row_keepsRecords .scanStay h
  | evScanTxreq key => exact exec_row_keepsRecords .scanTxreq h
  | evScanSofthop key => exact exec_row_keepsRecords .scanSofthop h
  | evScanIdle key => exact exec_row_keepsRecords .scanIdle h
  | evScanUnexpected key => exact exec_row_keepsRecords .scanUnexpected h
  | evCadDetect key => exact exec_row_keepsRecords .cadDetect h
  | evCadNextSf key => exact exec_row_keepsRecords .cadNextSf h
  | evCadExhausted key => exact exec_row_keepsRecords .cadExhausted h
  | evCadTxreq key => exact exec_row_keepsRecords .cadTxreq h
  | evCadSofthop key => exact exec_row_keepsRecords .cadSofthop h
  | evCadIdle key => exact exec_row_keepsRecords .cadIdle h
  | evCadUnexpected key => exact exec_row_keepsRecords .cadUnexpected h
  | evRxCrcerr key => exact exec_row_keepsRecords .rxCrcerr h
  | evRxHdrinv key => exact exec_row_keepsRecords .rxHdrinv h
  | evRxDone key => exact exec_row_keepsRecords .rxDone h
  | evRxTimeoutHop key => exact exec_row_keepsRecords .rxTimeoutHop h
  | evRxTimeout key => exact exec_row_keepsRecords .rxTimeout h
  | evRxHdrseen key => exact exec_row_keepsRecords .rxHdrseen h
  | evRxTxreq key => exact exec_row_keepsRecords .rxTxreq h
  | evRxSofttmo key => exact exec_row_keepsRecords .rxSofttmo h
  | evRxIdle key => exact exec_row_keepsRecords .rxIdle h
  | evRxUnexpected key => exact exec_row_keepsRecords .rxUnexpected h
  | evTxRun key => exact exec_row_keepsRecords .txRun h
  | evTxNoreq key => exact exec_row_keepsRecords .txNoreq h
  | evTxdDone key => exact exec_row_keepsRecords .txdDone h
  | evTxdTimeout key => exact exec_row_keepsRecords .txdTimeout h
  | evTxdWait key => exact exec_row_keepsRecords .txdWait h
  | evTxdUnexpected key => exact exec_row_keepsRecords .txdUnexpected h
  | evDefault key => exact exec_row_keepsRecords .default h

/-- CLOCK_ADVANCE, in range or refused, leaves every record but the clock (rule R301). -/
theorem clockAdvance_frame {d : Nat} (h : exec (.clockAdvance d) s = .next t) :
    t.par = s.par ∧ t.history = s.history ∧ t.faults = s.faults := by
  change execClockAdvance d s = .next t at h
  unfold execClockAdvance at h
  split at h
  · cases h
    exact ⟨rfl, rfl, rfl⟩
  · cases h
    exact ⟨rfl, rfl, rfl⟩

end

/-- Settles O10: CLOCK_ADVANCE leaves all but the clock, and every other operation keeps the records. -/
theorem parametersAndRecordsArePreserved : Obligations.ParametersAndRecordsArePreserved := by
  intro i s t h
  by_cases hi : ∀ d, i ≠ .clockAdvance d
  · obtain ⟨par, clock, history, faults⟩ := exec_keepsRecords hi h
    exact ⟨par, history, fun _ hf => faults hf, fun _ => clock⟩
  · obtain ⟨d, rfl⟩ : ∃ d, i = .clockAdvance d := by simpa using hi
    obtain ⟨par, history, faults⟩ := clockAdvance_frame h
    exact ⟨par, history ▸ List.prefix_rfl, fun _ hf => faults ▸ hf, fun hd => absurd rfl (hd d)⟩

end Sys2Proof.Machine
end

section
/-! PROOF. The invariant of a run, part by part (rules R20 to R41, R172, R269, R346, R388). Its clauses on the registers
(`State.LegalStore`) are kept by every update and every sequence of a pass, one lemma each. Its clauses on the control point and
the mode do not hold inside a pass: the end of a row restores them, at rest (`State.Rests`) or suspended in the transmit wait. -/

namespace Sys2Proof.Machine

open Sys2Proof

/-! ## The invariant, part by part -/

/-- What the registers of a legal state hold at any control point: the clauses of `State.Legal` but for `control` and `mode`,
with a name for each part of `slots` and `widths`. -/
structure State.LegalStore (s : State) : Prop where
  schedule : s.ordinarySchedule
  sf : legalSf s.sf
  config : s.legalConfig
  faults : s.legalFaults
  request : s.outValid = true → s.keyable
  inLen : s.inbound.len ≤ 128
  inPayload : s.inbound.payload.length = 128
  okPerSf : s.stats.okPerSf.length = 6
  okPerCh : s.stats.okPerCh.length = s.numChannels
  sentPerCh : s.stats.sentPerCh.length = s.numChannels
  clock : s.clock < 2 ^ s.par.timeBits
  eventTime : s.eventTime < 2 ^ s.par.timeBits
  doneTime : s.doneTime < 2 ^ s.par.timeBits
  inTime : s.inbound.time < 2 ^ s.par.timeBits
  target : s.outbound.target < 2 ^ s.par.timeBits
  adjusted : ∀ adj, s.txPhase = .waiting adj → adj < 2 ^ s.par.timeBits
  log : ∀ e ∈ s.log, e.t < 2 ^ s.par.timeBits
  ch : s.ch < 2 ^ indexBits s.numChannels
  cfgCh : s.cfgCh < 2 ^ indexBits s.numChannels
  inCh : s.inbound.ch < 2 ^ indexBits s.numChannels

/-- The state is inside a pass of a booted block, which no wait suspends: its registers are legal, whatever its radio state
and its mode are. -/
structure State.InPass (s : State) : Prop extends s.LegalStore where
  booted : s.booted = true
  awake : s.halted = false
  idle : s.txPhase = .idle

/-- A radio state that a pass can end in, with the mode that the chip is then left in (rules R23, R388). -/
inductive State.RadioRests (s : State) : Prop
  | init (h : s.radioState = stInit)
  | scanner (h : s.radioState = stScan ∨ s.radioState = stCad) (m : s.modeShadow = .known .cad)
  | receiver (h : s.radioState = stRx) (m : s.modeShadow = .known .rxSingle ∨ s.modeShadow = .known .rxCont)
  | transmitter (h : s.radioState = stTxDone) (m : s.modeShadow = .known .tx)

/-- The state can be the end of a pass that no wait suspends. -/
structure State.Rests (s : State) : Prop extends s.InPass where
  radio : s.RadioRests

/-- The radio states at rest are the known ones but TX (rules R23, R269). -/
theorem State.radioRests_iff (s : State) :
    s.RadioRests ↔ s.radioState.toNat ≤ 5 ∧ s.radioState ≠ stTx ∧ s.legalMode := by
  constructor
  · rintro (h | ⟨h | h, m⟩ | ⟨h, m⟩ | ⟨h, m⟩)
    · simp [State.legalMode, h, stInit, stScan, stCad, stRx, stTx, stTxDone]
    all_goals simp [State.legalMode, h, m, stScan, stCad, stRx, stTx, stTxDone]
  · rintro ⟨known, notTx, scanner, receiver, transmitter⟩
    have codes : ∀ r : BitVec 3, r.toNat ≤ 5 → r ≠ stTx →
        r = stInit ∨ (r = stScan ∨ r = stCad) ∨ r = stRx ∨ r = stTxDone := by decide
    rcases codes _ known notTx with h | h | h | h
    · exact .init h
    · exact .scanner h (scanner h)
    · exact .receiver h (receiver h)
    · exact .transmitter h (transmitter h)

theorem State.RadioRests.congr {s t : State} (r : s.RadioRests) (h : t.radioState = s.radioState)
    (m : t.modeShadow = s.modeShadow) : t.RadioRests := by
  rw [State.radioRests_iff] at r ⊢
  simpa only [State.legalMode, h, m] using r

theorem State.Legal.store {s : State} (h : s.Legal) : s.LegalStore := by
  obtain ⟨request, inLen, inPayload, okPerSf, okPerCh, sentPerCh⟩ := h.slots
  obtain ⟨⟨clock, eventTime, doneTime, inTime, target, adjusted, log⟩, ch, cfgCh, inCh⟩ := h.widths
  exact { h with request, inLen, inPayload, okPerSf, okPerCh, sentPerCh, clock, eventTime, doneTime, inTime, target, adjusted,
                 log, ch, cfgCh, inCh }

theorem State.LegalStore.legal {s : State} (h : s.LegalStore) (control : s.legalControl) (mode : s.legalMode) : s.Legal :=
  { h with
    control, mode
    slots := ⟨h.request, h.inLen, h.inPayload, h.okPerSf, h.okPerCh, h.sentPerCh⟩
    widths := ⟨⟨h.clock, h.eventTime, h.doneTime, h.inTime, h.target, h.adjusted, h.log⟩, h.ch, h.cfgCh, h.inCh⟩ }

/-- A state at rest in which no pass is in progress is legal. -/
theorem State.Rests.legal {s : State} (h : s.Rests) (ended : s.passActive = false) : s.Legal := by
  obtain ⟨known, notTx, mode⟩ := (State.radioRests_iff s).mp h.radio
  refine h.toLegalStore.legal ⟨known, ?_, ?_, ?_, fun _ => h.awake⟩ mode
  · simp [h.idle, ended]
  · simp [h.idle, notTx]
  · simp [h.idle]

/-- The end of a pass that came to rest. -/
theorem State.Rests.passEnded_legal {s : State} (h : s.Rests) : s.passEnded.Legal :=
  have rests : s.passEnded.Rests := { h with radio := h.radio.congr rfl rfl }
  rests.legal (by simp [State.passEnded, h.idle])

/-- A legal state in which no wait lasts has a radio state at rest. -/
theorem State.Legal.radioRests {s : State} (h : s.Legal) (idle : s.txPhase = .idle) : s.RadioRests := by
  obtain ⟨known, -, tx, -, -⟩ := h.control
  exact (State.radioRests_iff s).mpr ⟨known, fun ht => tx.mp ht idle, h.mode⟩

/-- A legal state in which a pass can start is at rest (rules R190, R269). -/
theorem State.Legal.rests {s : State} (h : s.Legal) (enabled : s.passEnabled = true) : s.Rests := by
  obtain ⟨-, suspended, -⟩ := h.control
  simp only [State.passEnabled, Bool.and_eq_true, Bool.not_eq_true'] at enabled
  obtain ⟨⟨⟨awake, booted⟩, ended⟩, -⟩ := enabled
  have idle : s.txPhase = .idle := by simpa [ended] using suspended
  exact { h.store with booted, awake, idle, radio := h.radioRests idle }

/-! ## Records of a configuration -/

/-- What a record that passes bring-up's checks gives the configuration registers (rules R24, R26, R31, R305). -/
theorem configValid_registers {n : Nat} {c : CfgRecord} (h : configValid n c = true) :
    c.ch < n ∧ legalSf (cfgSfOf c) ∧ (cfgHopOf c = true → c.hop = 1 ∧ 3 ≤ n) ∧ (cfgHopOf c = false → c.hop ≠ 1) := by
  simp only [configValid, sfInRange, Bool.and_eq_true, Bool.or_eq_true, decide_eq_true_eq, bne_iff_ne] at h
  obtain ⟨⟨⟨⟨sf, hop⟩, -⟩, ch⟩, enough⟩ := h
  have bit : cfgHopOf c = true ↔ c.hop = 1 := by
    rw [cfgHopOf, ← BitVec.testBit_toNat, Nat.testBit_zero, decide_eq_true_eq, BitVec.toNat_eq,
      show (1 : BitVec 8).toNat = 1 from rfl]
    omega
  refine ⟨ch, ?_, fun hb => ⟨bit.mp hb, enough.resolve_left (absurd (bit.mp hb))⟩, fun hb he => by simp [bit.mpr he] at hb⟩
  simp only [legalSf, cfgSfOf, BitVec.toNat_setWidth]
  omega

/-! ## Updates of the registers -/

namespace State.LegalStore

variable {s : State}

/-- The log stays legal where entries of this moment are appended (rule R345). -/
theorem log_append (h : s.LegalStore) {new : List LogEntry} (hn : ∀ e ∈ new, e.t = s.clock) :
    ∀ e ∈ s.log ++ new, e.t < 2 ^ s.par.timeBits := by
  intro e he
  rcases List.mem_append.mp he with he | he
  · exact h.log e he
  · exact hn e he ▸ h.clock

theorem logEntry (h : s.LegalStore) (code : LogCode) (info : List Nat) : (s.logEntry code info).LegalStore :=
  { h with log := h.log_append (by simp) }

theorem refuse (h : s.LegalStore) (c : RefuseCode) : (s.refuse c).LegalStore := by
  refine { h with log := ?_ }
  rw [State.refuse_log]
  split
  · exact h.log_append (by simp)
  · exact h.log

theorem park (h : s.LegalStore) {i : Instr} (hi : canWait i = true) : (s.park i).LegalStore := by
  obtain ⟨inbox, waiting⟩ := h.schedule
  refine { h with schedule := ⟨inbox, fun j hj => ?_⟩ }
  rcases List.mem_append.mp hj with hj | hj
  · exact waiting j hj
  · exact List.mem_singleton.mp hj ▸ hi

/-- A request that SUBMIT_TX accepts is keyable when it is staged (rule R302). -/
theorem stageRequest (h : s.LegalStore) (r : OutboundRequest) (hr : requestValid s.par r = true) :
    ({ s with outbound := stageRequest s.par s.outbound r, outValid := true } : State).LegalStore := by
  simp only [requestValid, Bool.and_eq_true, decide_eq_true_eq] at hr
  obtain ⟨⟨nonempty, short⟩, freq⟩ := hr
  have len : (BitVec.ofNat 8 r.payload.length).toNat = r.payload.length :=
    Nat.mod_eq_of_lt (short.trans_lt s.par.maxTxLen.isLt)
  refine { h with request := fun _ => ⟨freq, ?_, ?_⟩, target := truncTime_lt _ _ }
  · exact len ▸ nonempty
  · simp [Machine.stageRequest, writeFront, len]

/-- CONFIGURE takes a record that passes the checks (rule R305). -/
theorem configure (h : s.LegalStore) {c : CfgRecord} (hc : configValid s.numChannels c = true) :
    ({ s with
        cfgSF := cfgSfOf c, cfgHop := cfgHopOf c, cfgCad := cfgCadOf c, cfgCh := c.ch, ch := configuredChannel c
        radioState := stInit } : State).LegalStore := by
  obtain ⟨inPlan, sf, hop, noHop⟩ := configValid_registers hc
  have ch : configuredChannel c < s.numChannels := by
    unfold configuredChannel
    split
    · exact inPlan
    · exact s.numChannels_pos
  exact { h with
    config := ⟨h.config.1, fun _ => ⟨ch, sf, fun hb => (hop hb).2, fun hb => if_neg (noHop hb)⟩⟩
    ch := ch.trans_le (le_two_pow_indexBits _)
    cfgCh := inPlan.trans_le (le_two_pow_indexBits _) }

/-- RESET gives legal registers, whatever its record is: an unchecked one only binds a block that boots (rules R371,
R372). -/
theorem applyReset (h : s.LegalStore) (c : CfgRecord) : (s.applyReset c).LegalStore := by
  have ch : resetChannel s.numChannels c < 2 ^ indexBits s.numChannels := by
    unfold resetChannel
    split
    · exact cutIndex_lt _ _
    · exact Nat.two_pow_pos _
  refine
    { schedule := h.schedule, clock := h.clock, ch
      sf := PlanEntry.minSF_legal _
      config := ⟨nofun, fun hc => ?_⟩
      faults := ⟨h.faults.1, fun _ => rfl⟩
      request := nofun
      inLen := Nat.le_of_lt_succ (Nat.mod_lt _ (by decide))
      inPayload := (List.length_map _).trans List.length_range
      okPerSf := List.length_replicate, okPerCh := List.length_replicate, sentPerCh := List.length_replicate
      eventTime := truncTime_lt _ _, doneTime := truncTime_lt _ _, inTime := truncTime_lt _ _, target := truncTime_lt _ _
      adjusted := nofun, log := nofun
      cfgCh := cutIndex_lt _ _, inCh := cutIndex_lt _ _ }
  obtain ⟨inPlan, sf, hop, noHop⟩ := configValid_registers hc
  refine ⟨?_, sf, fun hb => (hop hb).2, fun hb => if_neg (noHop hb)⟩
  change resetChannel s.numChannels c < s.numChannels
  unfold resetChannel
  split
  · exact (cutIndex_of_lt inPlan).trans_lt inPlan
  · exact s.numChannels_pos

/-- A clock step keeps the widths: a wait is released or goes on for the same target (rule R301). -/
theorem tick (h : s.LegalStore) (d : Nat) :
    ({ s with txPhase := s.phaseAfter d, clock := s.par.truncTime (s.clock + d) } : State).LegalStore := by
  refine { h with clock := truncTime_lt _ _, adjusted := fun adj ha => h.adjusted adj ?_ }
  change s.phaseAfter d = .waiting adj at ha
  unfold State.phaseAfter at ha
  split at ha
  next hp =>
    split at ha
    · cases ha
    · exact hp.trans ha
  next => exact ha

end State.LegalStore

/-! ## Updates inside a pass -/

/-- The entry of SET_RATE, where there is one, is of this moment (rule R143). -/
theorem State.rateLog_time (s : State) (sf : Byte) : ∀ e ∈ s.rateLog sf, e.t = s.clock := by
  unfold State.rateLog
  split <;> simp

theorem rebased_lt {now t b : Nat} (hn : now < b) (ht : t < b) : rebased now t < b := by
  unfold rebased
  split
  · exact hn
  · exact ht

namespace State.InPass

variable {s : State}

/-- The configuration of a booted block is legal (rules R25, R26, R172). -/
theorem configured (h : s.InPass) :
    s.ch < s.numChannels ∧ legalSf s.cfgSF ∧ (s.cfgHop = true → 3 ≤ s.numChannels) ∧ (s.cfgHop = false → s.ch = 0) :=
  h.config.2 (h.config.1 h.booted)

theorem setSf (h : s.InPass) {v : BitVec 4} (hv : legalSf v) : (s.setSf v).InPass := { h with sf := hv }

theorem setState (h : s.InPass) (st : BitVec 3) : (s.setState st).InPass := { h with }

theorem consume (h : s.InPass) : s.consume.InPass := { h with request := nofun }

theorem appended (h : s.InPass) (events : List SpiEvent) {entries : List LogEntry} (he : ∀ e ∈ entries, e.t = s.clock) :
    (s.appended events entries).InPass := { h with log := h.log_append he }

theorem logEntry (h : s.InPass) (code : LogCode) (info : List Nat) : (s.logEntry code info).InPass :=
  { h with log := h.log_append (by simp) }

theorem logged (h : s.InPass) (code : LogCode) (info : List Nat) : (s.logged code info).InPass := h.logEntry code info

theorem readReg (h : s.InPass) (r : Reg) : (s.readReg r).InPass := { h with }

theorem andWrote (h : s.InPass) (r : Reg) (v : Byte) : (s.andWrote r v).InPass := { h with }

theorem clearIrq (h : s.InPass) (bits : Byte) : (s.clearIrq bits).InPass := { h with }

theorem startPass (h : s.InPass) : s.startPass.InPass := { h with }

theorem rebaseline (h : s.InPass) : s.rebaseline.InPass :=
  { h with eventTime := rebased_lt h.clock h.eventTime, doneTime := rebased_lt h.clock h.doneTime }

theorem stampEvent (h : s.InPass) (flags : Byte) : (s.stampEvent flags).InPass := by
  refine { h with eventTime := ?_ }
  change (if flags = 0 then s.eventTime else s.clock) < _
  split
  · exact h.eventTime
  · exact h.clock

theorem countRejected (h : s.InPass) : s.countRejected.InPass := { h with }

theorem countSent (h : s.InPass) : s.countSent.InPass := { h with sentPerCh := (bumpAt_length _ _).trans h.sentPerCh }

/-- The next channel is one of the plan; only a block that hops takes it (rules R170, R172). -/
theorem hopped (h : s.InPass) (hop : s.cfgHop = true) : s.hopped.InPass := by
  obtain ⟨-, sf, enough, -⟩ := h.configured
  have ch : (s.ch + 1) % s.numChannels < s.numChannels := Nat.mod_lt _ s.numChannels_pos
  exact { h with
    sf := PlanEntry.minSF_legal _
    config := ⟨h.config.1, fun _ => ⟨ch, sf, enough, fun hb => absurd (hop.symm.trans hb) nofun⟩⟩
    ch := ch.trans_le (le_two_pow_indexBits _) }

/-- A captured packet fills the slot to its form (rules R35, R310, R315). -/
theorem captured (h : s.InPass) : s.captured.InPass := by
  refine { h with
    inLen := min_le_right _ _
    inPayload := ?_
    okPerSf := ?_
    okPerCh := (bumpAt_length _ _).trans h.okPerCh
    inTime := h.clock
    inCh := h.ch
    log := h.log_append ?_ }
  · change (State.drainBytes _ _ ++ s.inbound.payload.drop _).length = 128
    rw [List.length_append, State.drainBytes_length, List.length_drop, h.inPayload]
    exact Nat.add_sub_cancel' (min_le_right _ _)
  · change (if _ then _ else _ : List Counter).length = 6
    split <;> simp [h.okPerSf]
  · split <;> simp

theorem passReady (h : s.InPass) : s.passReady.InPass := by
  have sampled : s.passSampled.InPass := (h.startPass.readReg _).rebaseline
  unfold State.passReady State.secondaryStep
  split
  · exact (sampled.readReg _).stampEvent _
  · exact sampled.stampEvent _

/-! ## Sequences -/

/-- What a sequence of bus transactions leaves: the chip oracle, the history and the mode anew, stamps and entries of this
moment (rules R33, R70, R345). -/
theorem sequenced (h : s.InPass) (mode : ModeShadow) {event done : Nat} (he : event < 2 ^ s.par.timeBits)
    (hd : done < 2 ^ s.par.timeBits) (events : List SpiEvent) {entries : List LogEntry}
    (hl : ∀ e ∈ entries, e.t < 2 ^ s.par.timeBits) (answers : List (Byte × Byte)) (draws : Nat) :
    ({ s with
        eventTime := event, doneTime := done, modeShadow := mode, log := entries, history := events
        chipAnswers := answers, draws := draws } : State).InPass :=
  { h with eventTime := he, doneTime := hd, log := hl }

theorem scannerArmed (h : s.InPass) : s.scannerArmed.InPass := by
  simp only [State.scannerArmed, State.twoModeReads]
  exact h.sequenced _ h.clock h.clock _ (h.log_append (s.rateLog_time _)) _ _

/-- The scanner, armed and into one of its two states. -/
theorem scannerInto (h : s.InPass) {st : BitVec 3} (hs : st = stScan ∨ st = stCad) :
    (s.scannerArmed.setState st).Rests :=
  { h.scannerArmed.setState st with radio := .scanner hs (by simp) }

/-- The scanner, armed again in one of its two states. -/
theorem scannerStays (h : s.InPass) (hs : s.radioState = stScan ∨ s.radioState = stCad) : s.scannerArmed.Rests :=
  { h.scannerArmed with radio := .scanner (by simpa using hs) (by simp) }

theorem scanning (h : s.InPass) : s.scanning.Rests := (h.setSf (PlanEntry.minSF_legal _)).scannerInto (.inl rfl)

theorem receiverArmed (h : s.InPass) : s.receiverArmed.InPass := by
  obtain ⟨-, sf, -⟩ := h.configured
  simp only [State.receiverArmed, State.twoModeReads]
  exact (h.setSf sf).sequenced _ h.clock h.doneTime _ (h.log_append (s.rateLog_time _)) _ _

theorem keyed (h : s.InPass) : s.keyed.InPass := by
  simp only [State.keyed, State.twoModeReads]
  exact h.sequenced _ h.clock h.doneTime _ (h.log_append (s.rateLog_time _)) _ _

theorem listening (h : s.InPass) : s.listening.Rests := by
  unfold State.listening
  split
  · exact h.scanning
  · exact { h.receiverArmed.setState 3 with radio := .receiver rfl (.inr rfl) }

theorem recovered (h : s.InPass) (k : BitVec 16) : (s.recovered k).Rests :=
  (((h.logged _ _).andWrote _ _).andWrote _ _).listening

theorem singleReceiving (h : s.InPass) : (s.singleArmed.setState 3).Rests :=
  { h with eventTime := h.clock, radio := .receiver rfl (.inl rfl) }

theorem restarted (h : s.InPass) : s.restarted.Rests := by
  have quiet : s.restarted.InPass := by
    simp only [State.restarted, State.twoModeReads]
    exact (h.setState 0).sequenced _ h.eventTime h.doneTime _ h.log _ _
  exact { quiet with radio := .init (State.restarted_radioState s) }

/-- The transmitter runs and its request is consumed (rule R260). -/
theorem sent (h : s.InPass) (m : s.modeShadow = .known .tx) :
    ({ s with outValid := false, radioState := 5 } : State).Rests :=
  { h.consume.setState 5 with radio := .transmitter rfl m }

theorem transmitting (h : s.InPass) : s.transmitting.Rests := h.keyed.sent (State.keyed_modeShadow s)

/-- A transmission, in TX with a request held: suspended in the wait, keyed, or its window missed (rule R260). -/
theorem transmission_legal (h : s.InPass) (hv : s.outValid = true) (hr : s.radioState = stTx) :
    s.transmission.passEnded.Legal := by
  have ready : s.txListening.InPass := (h.andWrote _ _).andWrote _ _
  have missed := ready.appended [] (entries := [s.missedEntry s.outbound.target s.outbound.sf])
    (by simp [State.missedEntry, State.txListening])
  simp only [State.transmission]
  split_ifs
  case pos =>
    have tx : s.txListening.radioState = stTx := hr
    have adjusted : s.targetOf s.outbound.target s.outbound.sf < 2 ^ s.par.timeBits := truncTime_lt _ _
    refine State.LegalStore.legal { h with adjusted := ?_ } ?_ ?_
    · rintro adj ⟨⟩
      exact adjusted
    · exact ⟨by simp [State.passEnded, tx, stTx], by simp [State.passEnded], by simp [State.passEnded, tx],
        fun _ => ⟨hv, h.booted⟩, fun _ => h.awake⟩
    · simp [State.legalMode, State.passEnded, tx, stTx, stScan, stCad, stRx, stTxDone]
  · exact ready.transmitting.passEnded_legal
  · exact missed.consume.listening.passEnded_legal
  · exact missed.transmitting.passEnded_legal

end State.InPass

end Sys2Proof.Machine
end

section
/-! PROOF. The FSM engine's steps keep the invariant: a row relies on what its key says of the registers, and then ends its pass
in a legal state; a resumed pass and bring-up end in one too. -/

namespace Sys2Proof.Machine

open Sys2Proof

/-! ## The key of a pass and its row (rules R95, R101, R191) -/

/-- What the selection of a row says of the registers in which the row runs, as far as the row relies on it. -/
def rowRelies (s : State) : Row → Prop
  | .scanStay => s.radioState = stScan
  | .scanDoneHop | .scanSofthop => s.radioState = stScan ∧ s.cfgHop = true
  | .cadSofthop | .rxTimeoutHop | .rxSofttmo => s.cfgHop = true
  | .cadNextSf => s.radioState = stCad ∧ s.sf.toNat < 12
  | .scanTxreq | .cadTxreq | .rxTxreq => s.outValid = true
  | .txRun => s.outValid = true ∧ s.radioState = stTx
  | _ => True

/-- The key's fields, as the decoder reads them, in the key that a state forms. -/
theorem State.key_reads (s : State) (flags : Byte) (tmo x : Bool) :
    keyS (s.key flags tmo x) = s.radioState.toNat ∧ keyX (s.key flags tmo x) = x ∧ keyTmo (s.key flags tmo x) = tmo ∧
      keyHop (s.key flags tmo x) = s.cfgHop ∧ keyTxq (s.key flags tmo x) = s.outValid ∧
      keyCaddet (s.key flags tmo x) = flagCaddet flags ∧ keyCaddone (s.key flags tmo x) = flagCaddone flags := by
  obtain ⟨state, byte, txq, -, hop, soft, second⟩ := s.key_fields flags tmo x
  have code : ∀ k : BitVec 16, keyS k = (k.extractLsb' 13 3).toNat := fun k => by
    have := k.isLt
    simp only [keyS, BitVec.extractLsb'_toNat, Nat.shiftRight_eq_div_pow]
    omega
  have flag : ∀ (k : BitVec 16) (i : Nat), i < 8 → k.getLsbD i = (k.extractLsb' 0 8).getLsbD i := fun k i hi => by
    simp [hi]
  refine ⟨by rw [code, state], second, soft, hop, txq, ?_, ?_⟩
  · rw [keyCaddet, flag _ 0 (by decide), byte, flagCaddet]
  · rw [keyCaddone, flag _ 2 (by decide), byte, flagCaddone]

/-- A soft timeout of a listening state is one of a block that hops (rules R176, R177). -/
theorem State.cfgHop_of_tmo {s : State} (ht : s.tmo = true) (hs : s.radioState.toNat ∈ [1, 2, 3]) : s.cfgHop = true := by
  have codes : ∀ r : BitVec 3, r.toNat ∈ [1, 2, 3] → r = stScan ∨ r = stCad ∨ r = stRx := by decide
  rcases codes _ hs with h | h | h <;> simp [State.tmo, h, stScan, stCad, stRx] at ht <;> exact ht.1

/-- Without X after a scan of CAD, a larger SF of the plan is left (rules R29, R192). -/
theorem State.sf_lt_of_not_secondary {s : State} {flags : Byte} (hx : s.secondary flags = false) (hs : s.radioState = stCad)
    (detected : flagCaddet flags = false) (done : flagCaddone flags = true) : s.sf.toNat < 12 := by
  have larger : ¬ (s.planAt s.ch).maxSF ≤ s.sf := by
    simpa [State.secondary, State.readsRssi, hs, stCad, stScan, detected, done] using hx
  have bound := (s.planAt s.ch).sfOrdered.2.2
  rw [BitVec.le_def] at larger
  omega

/-- The row of a key that a state forms finds there what it relies on. -/
theorem State.key_relies (s : State) (flags : Byte) :
    rowRelies s (decodeKey (s.key flags s.tmo (s.secondary flags))) := by
  obtain ⟨state, second, soft, hop, txq, detected, done⟩ := s.key_reads flags s.tmo (s.secondary flags)
  have wf := decodeKey_wf (s.key flags s.tmo (s.secondary flags))
  generalize s.key flags s.tmo (s.secondary flags) = k at *
  have code : ∀ {st : BitVec 3}, keyS k = st.toNat → s.radioState = st := fun h => BitVec.eq_of_toNat_eq (state.symm.trans h)
  have hops : keyTmo k = true → keyS k ∈ [1, 2, 3] → s.cfgHop = true := fun ht hs =>
    State.cfgHop_of_tmo (soft ▸ ht) (state ▸ hs)
  generalize decodeKey k = row at *
  cases row <;> simp only [Row.instr, Instr.wf, Bool.and_eq_true, Bool.not_eq_true', beq_iff_eq, and_assoc] at wf
  case scanStay =>
    obtain ⟨scan, -⟩ := wf
    exact code scan
  case scanDoneHop =>
    obtain ⟨scan, -, -, -, hh⟩ := wf
    exact ⟨code scan, hop.symm.trans hh⟩
  case scanSofthop =>
    obtain ⟨scan, -, -, ht⟩ := wf
    exact ⟨code scan, hops ht (by simp [scan])⟩
  case cadSofthop =>
    obtain ⟨cad, -, -, ht⟩ := wf
    exact hops ht (by simp [cad])
  case rxTimeoutHop =>
    obtain ⟨-, -, -, hh⟩ := wf
    exact hop.symm.trans hh
  case rxSofttmo =>
    obtain ⟨rx, -, -, ht⟩ := wf
    exact hops ht (by simp [rx])
  case cadNextSf =>
    obtain ⟨cad, hd, hc, hx⟩ := wf
    exact ⟨code cad, State.sf_lt_of_not_secondary (second ▸ hx) (code cad) (detected ▸ hd) (done ▸ hc)⟩
  case scanTxreq | cadTxreq =>
    obtain ⟨-, -, hv⟩ := wf
    exact txq.symm.trans hv
  case rxTxreq =>
    obtain ⟨-, -, hv, -⟩ := wf
    exact txq.symm.trans hv
  case txRun =>
    obtain ⟨tx, hv⟩ := wf
    exact ⟨txq.symm.trans hv, code tx⟩
  all_goals trivial

theorem rowRelies_congr {s t : State} (radioState : t.radioState = s.radioState) (cfgHop : t.cfgHop = s.cfgHop)
    (sf : t.sf = s.sf) (outValid : t.outValid = s.outValid) (row : Row) : rowRelies t row = rowRelies s row := by
  simp only [rowRelies, radioState, cfgHop, sf, outValid]

/-- The row that a pass selects finds what it relies on: between the key and the row come X's read and a stamp. -/
theorem State.passReady_relies (s : State) : rowRelies s.passReady (decodeKey s.passKey) := by
  have sampled : rowRelies s.passSampled (decodeKey s.passKey) := s.passSampled.key_relies s.snapshotFlags
  rwa [rowRelies_congr] <;> simp [s.passReady_frame, State.passSampled]

/-- A row that transmits has found a request (rule R195). -/
theorem outValid_of_rowTransmits {s : State} {row : Row} (relies : rowRelies s row) (ht : rowTransmits row = true) :
    s.outValid = true := by
  cases row
  case scanTxreq | cadTxreq | rxTxreq => exact relies
  case txRun => exact relies.1
  all_goals cases ht

/-! ## Rows -/

/-- Where a row that does not transmit comes to rest (rules R231 to R268). -/
theorem State.Rests.restingRow {s : State} (h : s.Rests) {row : Row} (k : BitVec 16) (relies : rowRelies s row)
    (ht : rowTransmits row = false) : (rowOutcome row k s).Rests := by
  have p := h.toInPass
  cases row
  case scanTxreq | cadTxreq | rxTxreq | txRun => cases ht
  case init => exact ((p.andWrote _ _).andWrote _ _).scanning
  case scanDetect | cadDetect => exact p.singleReceiving
  case scanPromote => exact p.scannerInto (.inr rfl)
  case scanDoneHop | scanSofthop => exact (p.hopped relies.2).scannerStays (.inl relies.1)
  case scanStay => exact p.scannerStays (.inl relies)
  case scanIdle | cadIdle | rxHdrseen | rxIdle | txdWait => exact h
  case scanUnexpected | cadUnexpected | rxUnexpected | txNoreq | default => exact p.recovered k
  case cadNextSf =>
    obtain ⟨cad, left⟩ := relies
    have next : legalSf (s.sf + 1) := by
      obtain ⟨low, -⟩ := p.sf
      simp only [legalSf, BitVec.toNat_add, show (1 : BitVec 4).toNat = 1 from rfl]
      omega
    exact (p.setSf next).scannerStays (.inr cad)
  case cadExhausted => exact p.scanning
  case cadSofthop => exact (p.hopped relies).scannerInto (.inl rfl)
  case rxCrcerr | rxHdrinv => exact ((p.logEntry _ _).countRejected.clearIrq _).listening
  case rxDone => exact (p.captured.andWrote _ _).listening
  case rxTimeoutHop | rxSofttmo => exact (p.hopped relies).listening
  case rxTimeout => exact (p.andWrote _ _).listening
  case txdDone => exact (p.countSent.clearIrq _).listening
  case txdTimeout => exact (p.logged _ _).restarted
  case txdUnexpected => exact ((p.logged _ _).andWrote _ _).scanning

/-- A row ends its pass in a legal state: at rest, or suspended in TX. -/
theorem State.Rests.row_legal {s : State} (h : s.Rests) {row : Row} (k : BitVec 16) (relies : rowRelies s row) :
    (rowOutcome row k s).passEnded.Legal := by
  by_cases ht : rowTransmits row = true
  · cases row
    case scanTxreq | cadTxreq | rxTxreq => exact (h.setState 4).transmission_legal relies rfl
    case txRun => exact h.toInPass.transmission_legal relies.1 relies.2
    all_goals cases ht
  · exact (h.restingRow k relies (by simpa using ht)).passEnded_legal

/-! ## The FSM engine's steps -/

namespace State.Legal

variable {s : State}

/-- A pass (rule R190). -/
theorem pass (h : s.Legal) (enabled : s.passEnabled = true) : (s.settle (evalPass s)).Legal := by
  have rests := h.rests enabled
  have relies := s.passReady_relies
  have ready : s.passReady.Rests :=
    { rests.toInPass.passReady with radio := rests.radio.congr (by simp [s.passReady_frame]) (by simp [s.passReady_frame]) }
  have keyable : s.keyable ∨ rowTransmits (decodeKey s.passKey) = false := by
    by_cases ht : rowTransmits (decodeKey s.passKey) = true
    · refine .inl (h.store.request ?_)
      simpa [s.passReady_frame] using outValid_of_rowTransmits relies ht
    · exact .inr (by simpa using ht)
  rw [evalPass_eq s keyable]
  exact ready.row_legal _ relies

/-- The engine's step that a released wait lets it make (rules R260, R283). -/
theorem resumption (h : s.Legal) (released : s.txPhase = .released) : s.resume.Legal := by
  obtain ⟨-, -, -, held, awake⟩ := h.control
  obtain ⟨request, booted⟩ := held (by simp [released])
  have inPass : (s.setPhase .idle).InPass := { h.store with adjusted := nofun, booted, awake := awake booted, idle := rfl }
  have keyed : txKey (s.setPhase .idle) = .ok (s.setPhase .idle).transmitting := txKey_eq _ (h.store.request request)
  rw [State.resume, keyed]
  exact inPass.transmitting.passEnded_legal

theorem logEntry (h : s.Legal) (code : LogCode) (info : List Nat) : (s.logEntry code info).Legal :=
  (h.store.logEntry code info).legal h.control h.mode

theorem readReg (h : s.Legal) (r : Reg) : (s.readReg r).Legal := { h with }

/-- Only a block that has not booted halts (rule R158). -/
theorem halt (h : s.Legal) (unbooted : s.booted = false) : ({ s with halted := true } : State).Legal := by
  obtain ⟨known, suspended, tx, held, -⟩ := h.control
  exact { h with control := ⟨known, suspended, tx, held, fun hb => absurd (unbooted.symm.trans hb) nofun⟩ }

/-- BRINGUP: an invalid record is the model fault, a mismatch halts the block, and a match boots it (rule R372). -/
theorem boot (h : s.Legal) (enabled : s.bringupEnabled = true) : (s.settle (bringup s)).Legal := by
  simp only [State.bringupEnabled, Bool.and_eq_true, Bool.not_eq_true', List.isEmpty_iff] at enabled
  obtain ⟨⟨unbooted, awake⟩, noFault⟩ := enabled
  have store := h.store
  obtain ⟨-, suspended, -, held, -⟩ := h.control
  have idle : s.txPhase = .idle := by
    by_contra hp
    exact absurd (held hp).2 (by simp [unbooted])
  have ended : s.passActive = false := by simpa [idle] using suspended
  unfold Machine.bringup
  split_ifs with hv hm
  · have raised : (s.raiseFault .cfg0Invalid).LegalStore := { store with faults := ⟨by simp [noFault], fun _ => unbooted⟩ }
    exact raised.legal h.control h.mode
  · have valid : configValid s.numChannels s.cfg0 = true := by simpa using hv
    have booted : ({ s with booted := true } : State).InPass :=
      { store with
        config := ⟨fun _ => valid, store.config.2⟩
        faults := ⟨store.faults.1, absurd noFault⟩
        booted := rfl, awake, idle }
    rw [bringupConfigure_eq s hm]
    have up : s.broughtUp.InPass := by
      simp only [State.broughtUp]
      exact (booted.setState 0).sequenced _ store.clock store.clock _ store.log _ _
    have rests : s.broughtUp.Rests := { up with radio := .init rfl }
    exact rests.legal ended
  · rw [State.checkChipId, if_neg hm]
    exact ((h.readReg .version).halt unbooted).logEntry _ _

end State.Legal

end Sys2Proof.Machine
end

section
/-! PROOF. The external interface keeps the invariant, and so does every step of a schedule that the spec's agents make. -/

namespace Sys2Proof.Machine

open Sys2Proof

/-! ## The external interface -/

namespace State.Legal

variable {s t : State}

/-- The state that a step answers. -/
theorem of_next (h : s.Legal) (e : (.next s : Host.Outcome State Fault Refusal) = .next t) : t.Legal := by
  cases e
  exact h

theorem ite {c : Prop} [Decidable c] (hs : c → s.Legal) (ht : ¬c → t.Legal) : (if c then s else t).Legal := by
  split
  next hc => exact hs hc
  next hc => exact ht hc

theorem answer (h : s.Legal) (r : OpResult) : (s.answer r).Legal := { h with }

theorem refuse (h : s.Legal) (c : RefuseCode) : (s.refuse c).Legal := (h.store.refuse c).legal h.control h.mode

theorem park (h : s.Legal) {i : Instr} (hi : canWait i = true) : (s.park i).Legal := (h.store.park hi).legal h.control h.mode

/-- IRQ_EDGE sets the latch (rule R300). -/
theorem latch (h : s.Legal) : ({ s with pending := true } : State).Legal := { h with }

/-- CLOCK_ADVANCE moves the phase of a wait and neither ends nor begins one (rules R283, R301). -/
theorem tick (h : s.Legal) (d : Nat) :
    ({ s with txPhase := s.phaseAfter d, clock := s.par.truncTime (s.clock + d) } : State).Legal := by
  obtain ⟨known, suspended, tx, held, awake⟩ := h.control
  have waits : s.phaseAfter d = .idle ↔ s.txPhase = .idle := by
    unfold State.phaseAfter
    split
    next hp => split <;> simp [hp]
    next => rfl
  rw [Ne, ← waits] at suspended tx held
  exact (h.store.tick d).legal ⟨known, suspended, tx, held, awake⟩ h.mode

theorem submitTx (h : s.Legal) (r : OutboundRequest) : (s.submitTx r).Legal := by
  obtain ⟨known, suspended, tx, held, awake⟩ := h.control
  unfold State.submitTx
  split_ifs with _ _ hr
  · exact h.refuse _
  · exact (h.logEntry _ _).answer _
  · exact (h.logEntry _ _).answer _
  · have staged := h.store.stageRequest r (by simpa using hr)
    exact (staged.legal ⟨known, suspended, tx, fun hp => ⟨rfl, (held hp).2⟩, awake⟩ h.mode).answer _

theorem takePacket (h : s.Legal) : s.takePacket.Legal := by
  unfold State.takePacket
  split_ifs
  · exact h.refuse _
  · exact { h with }
  · exact h.answer _

/-- CONFIGURE comes where no wait lasts, and leaves INIT (rules R21, R305). -/
theorem configure (h : s.Legal) (c : CfgRecord) (ready : s.hostReady = true) : (s.configure c).Legal := by
  obtain ⟨known, suspended, tx, held, awake⟩ := h.control
  unfold State.configure
  split_ifs with _ hc
  · exact h.refuse _
  · exact (h.logEntry _ _).answer _
  · have idle : s.txPhase = .idle := by
      simp only [State.hostReady, Bool.and_eq_true, Bool.not_eq_true'] at ready
      obtain ⟨⟨ended, -⟩, -⟩ := ready
      simpa [ended] using suspended
    have taken := h.store.configure (c := c) (by simpa using fun hv => hc (.inr (.inr hv)))
    refine (taken.legal ⟨Nat.zero_le _, suspended, ?_, held, awake⟩ ⟨nofun, nofun, nofun⟩).answer _
    simp [idle, stInit, stTx]

/-- RESET ends a pass, a wait and a halt, and leaves INIT (rules R370, R371). -/
theorem applyReset (h : s.Legal) (c : CfgRecord) : (s.applyReset c).Legal :=
  (h.store.applyReset c).legal ⟨Nat.zero_le _, by simp [State.applyReset], by simp [State.applyReset, stInit, stTx],
    fun hp => absurd rfl hp, nofun⟩ ⟨nofun, nofun, nofun⟩

end State.Legal

/-! ## The step -/

/-- The operations that a schedule of the spec's agents runs: the external ones, and the engine's two own (rules R20, R190,
R372; log entry 9). -/
def scheduled : Instr → Bool
  | .evalPass | .bringup => true
  | i => !engineOnly i

/-- Every operation of the schedule keeps the invariant. -/
theorem exec_legal {s t : State} (h : s.Legal) {i : Instr} (hi : scheduled i = true) (e : exec i s = .next t) : t.Legal := by
  cases i
  case evalPass => exact (State.Legal.ite h.pass fun _ => h).of_next e
  case bringup => exact (State.Legal.ite h.boot fun _ => h).of_next e
  case irqEdge line => exact (State.Legal.ite (fun _ => h.refuse _) fun _ => h.latch.answer _).of_next e
  case submitTx r => exact (State.Legal.ite (fun _ => h.submitTx r) fun _ => h.park rfl).of_next e
  case takePacket => exact (State.Legal.ite (fun _ => h.takePacket) fun _ => h.park rfl).of_next e
  case readStats => exact (State.Legal.ite (fun _ => h.answer _) fun _ => h.park rfl).of_next e
  case configure c => exact (State.Legal.ite (h.configure c) fun _ => h.park rfl).of_next e
  case readState => exact (h.answer _).of_next e
  case reset c => exact ((h.applyReset c).answer _).of_next e
  case clockAdvance d => exact (State.Legal.ite (fun _ => (h.tick d).answer _) fun _ => h.refuse _).of_next e
  all_goals cases hi

/-- What a step finds to do is legal. -/
def Fetched.Legal : Fetched → Prop
  | .run i s => scheduled i = true ∧ s.Legal
  | .done s => s.Legal

/-- The engine's turn (rules R190, R196, R283, R372). -/
theorem State.Legal.engineStep {s : State} (h : s.Legal) : s.engineStep.Legal := by
  unfold State.engineStep
  split_ifs with _ _ _ hr
  · exact ⟨rfl, h⟩
  · exact ⟨rfl, h⟩
  · exact h
  · exact h.resumption hr.1
  · exact h

theorem scheduled_of_external {i : Instr} (hi : engineOnly i = false) : scheduled i = true := by
  cases i
  case evalPass | bringup => rfl
  all_goals simp [scheduled, hi]

theorem scheduled_of_canWait {i : Instr} (hi : canWait i = true) : scheduled i = true := by
  cases i
  case submitTx | takePacket | readStats | configure => rfl
  all_goals cases hi

/-- One input of the schedule: only the engine presents operations of its side, and no schedule of the spec holds such a frame
(rules R100, R103). -/
theorem State.Legal.receive {s : State} (h : s.Legal) {x : Input} (hx : ordinaryInput x = true) : (s.receive x).Legal := by
  cases x with
  | engine => exact h.engineStep
  | answer addr v => exact { h with }
  | frame ag f =>
    have foreign : (ag != .fsmEngine) = true := hx
    simp only [State.receive, State.present, foreign, Bool.and_true]
    split_ifs with hf
    · exact h.refuse _
    · exact h
    · split
      next i hd =>
        split
        · exact ⟨scheduled_of_external (by simpa [hf] using decode_engineSide f i hd), h⟩
        · exact h
      next => exact h.refuse _

theorem State.Legal.fetch {s : State} (h : s.Legal) : s.fetch.Legal := by
  obtain ⟨inbox, waiting⟩ := h.schedule
  unfold State.fetch
  split
  next i rest hw =>
    obtain ⟨hi, -, hr⟩ := takeFirst_mem hw
    exact ⟨scheduled_of_canWait (waiting i hi), { h with schedule := ⟨inbox, fun j hj => waiting j (hr j hj)⟩ }⟩
  next =>
    split
    next x rest hx =>
      rw [hx] at inbox
      have rest : ({ s with inbox := rest } : State).Legal :=
        { h with schedule := ⟨fun y hy => inbox y (.tail _ hy), waiting⟩ }
      exact rest.receive (inbox x (.head _))
    next => exact h.engineStep

/-- Settles O59: a step runs an operation of the schedule in a legal state, or has reached a legal state already. -/
theorem stepKeepsLegal : Obligations.StepKeepsLegal := by
  intro s t h e
  have found := h.fetch
  unfold step at e
  split at e
  next i u hf =>
    rw [hf] at found
    exact exec_legal found.2 found.1 e
  next u hf =>
    rw [hf] at found
    cases e
    exact found

end Sys2Proof.Machine
end

section
/-! PROOF. The external interface: no operation of it is a bus transaction (rules R20, R135, R381); what a step makes of a
presented frame (rules R20, R102); when a host operation runs, waits or is refused (rules R21, R317, R331, R346, R373); the
clock's step (rules R40, R301). -/

namespace Sys2Proof.Machine

open Sys2Proof

/-! ## The event history -/

section

variable {s t u v : State}

theorem history_of_next (e : (.next u : Host.Outcome State Fault Refusal) = .next t) (h : u.history = s.history) :
    t.history = s.history := by
  cases e
  exact h

theorem history_ite {c : Prop} [Decidable c] (hu : u.history = s.history) (hv : v.history = s.history) :
    (if c then u else v).history = s.history := by
  split
  · exact hu
  · exact hv

theorem submitTx_history (s : State) (r : OutboundRequest) : (s.submitTx r).history = s.history :=
  history_ite rfl (history_ite rfl (history_ite rfl rfl))

theorem takePacket_history (s : State) : s.takePacket.history = s.history := history_ite rfl (history_ite rfl rfl)

theorem configure_history (s : State) (c : CfgRecord) : (s.configure c).history = s.history :=
  history_ite rfl (history_ite rfl rfl)

end

/-- Settles O9: each operation of the interface answers a state with the history it began with. -/
theorem interfaceIssuesNoTransaction : Obligations.InterfaceIssuesNoTransaction := by
  intro i s t hi e
  cases i
  case irqEdge line => exact history_of_next e (history_ite rfl rfl)
  case submitTx r => exact history_of_next e (history_ite (submitTx_history s r) rfl)
  case takePacket => exact history_of_next e (history_ite (takePacket_history s) rfl)
  case readStats => exact history_of_next e (history_ite rfl rfl)
  case configure c => exact history_of_next e (history_ite (configure_history s c) rfl)
  case readState => exact history_of_next e rfl
  case reset c => exact history_of_next e rfl
  case clockAdvance d =>
    obtain ⟨-, history, -⟩ := clockAdvance_frame e
    exact history
  all_goals cases hi

/-! ## Presented frames -/

/-- The engine can move where it is neither halted, nor faulted, nor in the transmit wait (rules R195, R283, R331, R346). -/
theorem State.engineFree_iff (s : State) : s.engineFree = true ↔ s.halted = false ∧ s.faults = [] ∧ s.txPhase = .idle := by
  simp [State.engineFree, and_assoc]

/-- Where no waiting operation is enabled, a step takes the next input of the schedule (log entry 9). -/
theorem State.fetch_nextIs {s : State} {x : Input} {rest : List Input} (h : s.nextIs x rest) :
    s.fetch = ({ s with inbox := rest } : State).receive x := by
  obtain ⟨noneWaits, next⟩ := h
  rw [State.fetch, noneWaits, next]

/-- A decoded operation runs where its agent has it and, for one of the engine's side, the engine can move (rules R20, R102). -/
theorem State.present_run {s : State} {ag : Agent} {f : Frame} {i : Instr} (decoded : decode f = .ok i)
    (has : ag.presents i = true) (free : f.internal = true → s.engineFree = true) : s.present ag f = .run i s := by
  have side := decode_engineSide f i decoded
  have engine : f.internal = true → ag = .fsmEngine := fun hf => by
    simpa [has] using (ag.presents_engineSide i).1 (side.trans hf)
  unfold State.present
  split_ifs with refused blocked
  · simp only [Bool.and_eq_true, bne_iff_ne] at refused
    exact absurd (engine refused.1) refused.2
  · simp only [Bool.and_eq_true, Bool.not_eq_true'] at blocked
    exact absurd (free blocked.1) (by simp [blocked.2])
  · simp [decoded, has]

/-- An operation of the external interface is passed over where its agent does not have it (log entry 21). -/
theorem State.present_passedOver {s : State} {ag : Agent} {f : Frame} {i : Instr} (decoded : decode f = .ok i)
    (lacks : ag.presents i = false) (external : f.internal = false) : s.present ag f = .done s := by
  simp [State.present, external, decoded, lacks]

/-- Settles O5: the input is taken, and its frame runs as the operation that it decodes to. -/
theorem stepRunsDecodedOperation : Obligations.StepRunsDecodedOperation := by
  intro s ag f rest i next decoded _ has free
  have run : ({ s with inbox := rest } : State).present ag f = .run i { s with inbox := rest } :=
    State.present_run decoded has fun hf => (State.engineFree_iff _).mpr (free hf)
  rw [step, State.fetch_nextIs next, State.receive, run]

/-! ## Waiting host operations -/

theorem State.hostReady_iff (s : State) : s.hostReady = true ↔ s.hostTurn := by
  simp [State.hostReady, State.hostTurn, and_assoc]

theorem State.statsReady_iff (s : State) : s.statsReady = true ↔ s.passActive = false ∧ s.faults = [] := by
  simp [State.statsReady]

/-- The schedule's test of a waiting operation is the rules' condition (rules R21, R317, R346, R373). -/
theorem State.canRun_iff (s : State) {i : Instr} (hi : canWait i = true) : s.canRun i = true ↔ s.enabledNow i := by
  cases i
  case submitTx | takePacket | configure => exact s.hostReady_iff.trans (by simp [State.enabledNow])
  case readStats =>
    refine s.statsReady_iff.trans ⟨fun h => .inr ⟨rfl, h⟩, ?_⟩
    rintro (⟨ended, noFault, -⟩ | ⟨-, h⟩)
    · exact ⟨ended, noFault⟩
    · exact h
  all_goals cases hi

/-- A host operation that is not enabled goes to the end of the waiting list (rule R317). -/
theorem exec_parks {s : State} {i : Instr} (hi : canWait i = true) (blocked : s.canRun i = false) :
    exec i s = .next (s.park i) := by
  have parks : ∀ {b : Bool} {u v : State}, b = false →
      (.next (if b then u else v) : Host.Outcome State Fault Refusal) = .next v := by
    rintro _ _ _ rfl
    rfl
  cases i
  case submitTx | takePacket | readStats | configure => exact parks blocked
  all_goals cases hi

/-- The first operation that a test accepts is taken out of the list. -/
theorem takeFirst_append {p : Instr → Bool} {before : List Instr} (behind : List Instr) {i : Instr}
    (hb : ∀ j ∈ before, p j = false) (hi : p i = true) : takeFirst p (before ++ i :: behind) = some (i, before ++ behind) := by
  induction before with
  | nil => simp [takeFirst, hi]
  | cons j before ih =>
    obtain ⟨hj, hb⟩ := List.forall_mem_cons.mp hb
    simp [takeFirst, hj, ih hb]

/-- Settles O56: a halted block refuses in the host's turn, an operation that is not enabled is parked, and the first enabled
one of the list is what a step takes. -/
theorem hostOperationsRefusedOrWaiting : Obligations.HostOperationsRefusedOrWaiting := by
  refine ⟨fun s r c turn halted => ?_, fun i s hi blocked => ?_, fun s before behind i waiting earlier hi enabled => ?_⟩
  · have ready := s.hostReady_iff.mpr turn
    refine ⟨?_, ?_, ?_⟩
    all_goals exact congrArg Host.Outcome.next ((if_pos ready).trans (if_pos halted))
  · refine exec_parks hi (Bool.eq_false_iff.mpr fun hr => ?_)
    rcases (s.canRun_iff hi).mp hr with ⟨ended, noFault, up⟩ | ⟨stats, ended, noFault⟩
    · rcases blocked with active | fault | ⟨-, unbooted, awake⟩
      · simp [ended] at active
      · exact fault noFault
      · simp [unbooted, awake] at up
    · rcases blocked with active | fault | ⟨other, -⟩
      · simp [ended] at active
      · exact fault noFault
      · exact other stats
  · have skipped : ∀ j ∈ before, s.canRun j = false := fun j hj => by
      obtain ⟨waits, notYet⟩ := earlier j hj
      exact Bool.eq_false_iff.mpr fun hr => notYet ((s.canRun_iff waits).mp hr)
    have taken := takeFirst_append behind skipped ((s.canRun_iff hi).mpr enabled)
    rw [step, State.fetch, waiting, taken]

/-! ## CLOCK_ADVANCE -/

theorem decode_clockAdvance (d : Nat) : decode (.op 0x8700 (.tick d)) = .ok (.clockAdvance d) := rfl

theorem State.tickInRange_iff (s : State) (d : Nat) : s.tickInRange d = true ↔ 1 ≤ d ∧ d < 2 ^ (s.par.timeBits - 1) := by
  simp [State.tickInRange, Nat.one_le_iff_ne_zero]

/-- A wait is released where the step covers the clock's distance to its target (rules R283, R301). -/
theorem State.phaseAfter_eq (s : State) (d : Nat) :
    s.phaseAfter d = match s.txPhase with
      | .waiting adj => if s.distanceTo adj ≤ d then .released else .waiting adj
      | p => p := by
  unfold State.phaseAfter
  cases s.txPhase with
  | idle => rfl
  | released => rfl
  | waiting adj =>
    have distance : s.par.subTime adj s.clock ≤ d ↔ s.distanceTo adj ≤ d := by
      rw [State.distanceTo, ← subTime_eq, Int.ofNat_le]
    simp only [distance]

/-- Settles O46: the frame decodes to the clock's step, which another agent's is not; in range it moves the clock and the phase,
and out of range it is refused. -/
theorem clockAdvanceMovesAndReleases : Obligations.ClockAdvanceMovesAndReleases := by
  refine ⟨decode_clockAdvance, fun s ag d rest next other => ?_, fun s d => ⟨fun low high => ?_, fun out => ?_⟩⟩
  · have lacks : ag.presents (.clockAdvance d) = false := by simpa [Agent.presents] using other
    rw [step, State.fetch_nextIs next, State.receive, State.present_passedOver (decode_clockAdvance d) lacks rfl]
  · have inRange := (s.tickInRange_iff d).mpr ⟨low, high⟩
    simp only [exec, execClockAdvance, inRange, if_true, State.phaseAfter_eq]
    rfl
  · have outOfRange : ¬s.tickInRange d = true := by
      rw [State.tickInRange_iff]
      omega
    exact congrArg Host.Outcome.next (if_neg outOfRange)

end Sys2Proof.Machine
end

section
/-! PROOF. Register and memory access (20_memory.md): which answer of the chip serves a read (rule R66); the writes of the
frequency word (rule R62); the FIFO burst of KEY_TX and the FIFO drain of CAPTURE_PACKET (rule R64). -/

namespace Sys2Proof.Machine

open Sys2Proof

/-! ## The chip's answers (rule R66) -/

/-- A queued answer that serves a read is used up, and no draw is taken. -/
theorem State.busRead_served {s : State} {a v : Byte} {rest : List (Byte × Byte)}
    (h : takeAnswer a s.chipAnswers = some (v, rest)) :
    s.oracle a = v ∧ (s.busRead a).chipAnswers = rest ∧ (s.busRead a).draws = s.draws := by
  simp [State.oracle, answersAfter, drawsAfter, h]

/-- A read that no queued answer serves is the next free draw, and leaves the queue. -/
theorem State.busRead_drawn {s : State} {a : Byte} (h : takeAnswer a s.chipAnswers = none) :
    s.oracle a = Config.chipDraw s.draws ∧ (s.busRead a).chipAnswers = s.chipAnswers ∧
      (s.busRead a).draws = s.draws + 1 := by
  simp [State.oracle, answersAfter, drawsAfter, h]

/-- Settles O11: the first queued answer of the address is the one that the read takes. -/
theorem readTakesQueuedAnswerOrFreeDraw : Obligations.ReadTakesQueuedAnswerOrFreeDraw := by
  refine fun s a => ⟨fun l r v queue others => ?_, fun others => ?_⟩
  · exact State.busRead_served (by rw [queue, takeAnswer_queued a v l r others])
  · exact State.busRead_drawn (takeAnswer_free a s.chipAnswers others)

/-! ## The frequency word (rules R62, R140) -/

theorem exec_setFrequency (hz : BitVec 32) (s : State) : exec (.setFrequency hz) s = .next (s.settle (setFrequency hz s)) :=
  rfl

/-- The precondition of a reconfiguration (rule R147). -/
theorem State.standbyHeld_iff (s : State) :
    s.standbyHeld = true ↔ s.modeShadow = .known .sleep ∨ s.modeShadow = .known .standby := by
  simp [State.standbyHeld]

/-- Settles O15: in SLEEP or STANDBY the frequency's range alone decides between the three writes and the fault. -/
theorem setFrequencyWritesFlooredWord : Obligations.SetFrequencyWritesFlooredWord := by
  intro s hz mode
  have held := s.standbyHeld_iff.mpr mode
  refine ⟨fun below => ?_, fun above => ?_⟩
  · rw [exec_setFrequency, setFrequency_ok hz s held below, State.settle_ok]
    simp [State.appended, State.frequencyEvents]
  · rw [exec_setFrequency, setFrequency_eq, if_pos held, if_neg (Nat.not_lt.mpr above), State.settle_error]

/-! ## The FIFO burst of a transmission (rules R64, R205) -/

theorem decode_keyTx : decode (.op 0x4500 .empty) = .ok .keyTx := rfl

theorem exec_keyTx (s : State) : exec .keyTx s = .next (s.settle (keyTx s)) := rfl

/-- Settles O37: a request that can be keyed passes every check of KEY_TX, which so ends in its closed form. -/
theorem keyTxSequence : Obligations.KeyTxSequence := by
  refine ⟨decode_keyTx, fun s keyable => ?_⟩
  rw [exec_keyTx, keyTx_eq s keyable, State.settle_ok]
  rfl

/-! ## The FIFO drain of a reception (rules R64, R310) -/

/-- The drain's byte at a position is what the FIFO register returns after as many reads of it. -/
theorem State.drainBytes_getElem? (s : State) {n k : ℕ} (h : k < n) :
    (s.drainBytes n)[k]? = some ((s.drain k).regValue .fifo) := by
  induction n generalizing s k with
  | zero => exact absurd h (Nat.not_lt_zero k)
  | succ n ih =>
    cases k with
    | zero => rfl
    | succ k => exact ih (s.readReg .fifo) (Nat.lt_of_succ_lt_succ h)

theorem State.drain_history (s : State) (n : ℕ) :
    (s.drain n).history = s.history ++ (s.drainBytes n).map (s.didRead .fifo) :=
  congrArg State.history (s.drain_eq n)

/-- Settles O49: CAPTURE_PACKET ends in its closed form, and the drain is followed read by read. -/
theorem capturePacketFillsSlot : Obligations.CapturePacketFillsSlot :=
  ⟨fun s => congrArg Host.Outcome.next (capturePacket_eq s),
    fun s n => ⟨s.drainBytes_length n, s.drain_history n, fun _ inDrain => s.drainBytes_getElem? inDrain⟩⟩

end Sys2Proof.Machine
end

section
/-! PROOF. Decoding and encoding (30_encoding.md): the address byte of a bus frame (rules R90, R91); an operation word as its
code and its immediate, and the one row that it matches (rules R96, R100, R102); the two round trips, format by format. -/

namespace Sys2Proof

open Sys2Proof.Machine

/-! ## The address byte of a bus frame (rules R90, R91) -/

/-- Bit 7 of an address byte, `W`, is the half of the byte's values that the byte is in. -/
theorem addrByte_write_iff (b : Byte) : b.getLsbD 7 = true ↔ 0x80 ≤ b.toNat := by
  have := b.isLt
  rw [← BitVec.testBit_toNat, Nat.testBit_eq_decide_div_mod_eq, decide_eq_true_eq]
  omega

theorem addrByte_read_iff (b : Byte) : b.getLsbD 7 = false ↔ b.toNat < 0x80 := by
  rw [← Bool.not_eq_true, addrByte_write_iff, Nat.not_le]

theorem addrField_toNat (b : Byte) : (b &&& 0x7F).toNat = b.toNat % 0x80 := by
  rw [BitVec.toNat_and]
  exact Nat.and_two_pow_sub_one_eq_mod _ 7

theorem addrField_lt (b : Byte) : (b &&& 0x7F).toNat < 0x80 :=
  addrField_toNat b ▸ Nat.mod_lt _ (by decide)

/-- The address field is the whole byte of a read. -/
theorem addrField_of_lt {a : Byte} (h : a.toNat < 0x80) : a &&& 0x7F = a :=
  BitVec.eq_of_toNat_eq ((addrField_toNat a).trans (Nat.mod_eq_of_lt h))

/-- The address byte of a write is the address and `W = 1`. -/
theorem writeByte_toNat {a : Byte} (h : a.toNat < 0x80) : (0x80 ||| a).toNat = 0x80 + a.toNat := by
  rw [BitVec.toNat_or]
  exact (Nat.two_pow_add_eq_or_of_lt (i := 7) h 1).symm

theorem writeByte_isWrite {a : Byte} (h : a.toNat < 0x80) : (0x80 ||| a).getLsbD 7 = true := by
  rw [addrByte_write_iff, writeByte_toNat h]
  exact Nat.le_add_right _ _

theorem addrField_writeByte {a : Byte} (h : a.toNat < 0x80) : (0x80 ||| a) &&& 0x7F = a := by
  apply BitVec.eq_of_toNat_eq
  rw [addrField_toNat, writeByte_toNat h]
  omega

theorem writeByte_addrField {b : Byte} (h : b.getLsbD 7 = true) : 0x80 ||| (b &&& 0x7F) = b := by
  have high := (addrByte_write_iff b).mp h
  have := b.isLt
  apply BitVec.eq_of_toNat_eq
  rw [writeByte_toNat (addrField_lt b), addrField_toNat]
  omega

/-! ## The code and the immediate of a word (rule R96) -/

/-- Two words are equal if their codes and their immediates are. -/
theorem word_eq_iff_parts (v w : BitVec 16) : v = w ↔ opCode v = opCode w ∧ opImm v = opImm w := by
  refine ⟨fun h => h ▸ ⟨rfl, rfl⟩, fun ⟨code, imm⟩ => ?_⟩
  have code := congrArg BitVec.toNat code
  have imm := congrArg BitVec.toNat imm
  simp only [opCode, opImm, BitVec.extractLsb'_toNat, Nat.shiftRight_eq_div_pow] at code imm
  apply BitVec.eq_of_toNat_eq
  omega

theorem opCode_and (v w : BitVec 16) : opCode (v &&& w) = opCode v &&& opCode w := BitVec.extractLsb'_and

theorem opImm_and (v w : BitVec 16) : opImm (v &&& w) = opImm v &&& opImm w := BitVec.extractLsb'_and

/-- A row fixes the whole code, and the bits of the immediate that it fixes are 0. -/
theorem matchMask_parts (n : OpName) : opCode n.matchMask.2 = 0xFF ∧ opImm n.matchMask.1 = 0 := by
  cases n <;> exact ⟨rfl, rfl⟩

theorem opImm_opWord (n : OpName) (imm : Byte) : opImm (opWord n imm) = imm := by
  have parts : opImm (opWord n imm) = opImm n.matchMask.1 ||| opImm (imm.setWidth 16) := BitVec.extractLsb'_or
  have widened : opImm (imm.setWidth 16) = imm := by
    apply BitVec.eq_of_getLsbD_eq
    intro i hi
    simp [opImm, hi, show i < 16 by omega]
  rw [parts, widened, (matchMask_parts n).2]
  exact BitVec.zero_or

/-- The low bits of a word are those of its immediate. -/
theorem extractLsb'_eq_opImm (w : BitVec 16) {n : Nat} (h : n ≤ 8) : w.extractLsb' 0 n = (opImm w).extractLsb' 0 n := by
  apply BitVec.eq_of_getLsbD_eq
  intro i hi
  simp [opImm, hi, show i < 8 by omega]

theorem getLsbD_eq_opImm (w : BitVec 16) : w.getLsbD 0 = (opImm w).getLsbD 0 := by
  simp [opImm]

/-! ## The row that a word matches (rules R100, R102) -/

/-- A word matches a row where it has the row's code and its immediate has none of the bits that the row reserves. -/
theorem matches_iff (n : OpName) (w : BitVec 16) :
    n.matches w = true ↔ opCode w = opCode n.matchMask.1 ∧ opImm w &&& opImm n.matchMask.2 = 0 := by
  obtain ⟨codeMask, immMatch⟩ := matchMask_parts n
  have whole : ∀ c : Byte, c &&& 0xFF = c := fun _ => BitVec.and_allOnes
  rw [OpName.matches, beq_iff_eq, word_eq_iff_parts, opCode_and, opImm_and, codeMask, immMatch, whole]

/-- A word that matches a row is the row's word with the immediate, which has none of the reserved bits. -/
theorem eq_opWord_of_matches {n : OpName} {w : BitVec 16} (h : n.matches w = true) :
    w = opWord n (opImm w) ∧ opImm w &&& opImm n.matchMask.2 = 0 := by
  obtain ⟨code, reserved⟩ := (matches_iff n w).mp h
  refine ⟨(word_eq_iff_parts _ _).mpr ⟨?_, (opImm_opWord n _).symm⟩, reserved⟩
  rw [opCode_opWord, code]

theorem matches_opWord {n : OpName} {imm : Byte} (h : imm &&& opImm n.matchMask.2 = 0) : n.matches (opWord n imm) = true := by
  rw [matches_iff, opCode_opWord, opImm_opWord]
  exact ⟨rfl, h⟩

theorem mem_opNames (n : OpName) : n ∈ opNames := by
  cases n <;> decide

/-- No two rows have one code (rule R100). -/
theorem rowCode_injective {n m : OpName} (h : opCode n.matchMask.1 = opCode m.matchMask.1) : n = m := by
  have distinct : (opNames.map fun n => opCode n.matchMask.1).Nodup := by decide
  exact List.inj_on_of_nodup_map distinct (mem_opNames n) (mem_opNames m) h

/-- At most one row matches a word (rule R102). -/
theorem matches_unique {w : BitVec 16} {n m : OpName} (hn : n.matches w = true) (hm : m.matches w = true) : n = m :=
  rowCode_injective ((matches_code n w hn).symm.trans (matches_code m w hm))

theorem findOp_eq_some_iff {w : BitVec 16} {n : OpName} : findOp w = some n ↔ n.matches w = true := by
  refine ⟨fun h => List.find?_some (p := fun n : OpName => n.matches w) h, fun h => ?_⟩
  cases found : findOp w with
  | none => exact absurd h (List.find?_eq_none.mp found n (mem_opNames n))
  | some m => exact congrArg some (matches_unique (List.find?_some (p := fun n : OpName => n.matches w) found) h)

theorem findOp_eq_none_iff {w : BitVec 16} : findOp w = none ↔ ∀ n : OpName, n.matches w = false := by
  simp [findOp, mem_opNames]

/-- A row's word decodes by the row. -/
theorem decode_opWord {n : OpName} {imm : Byte} (h : imm &&& opImm n.matchMask.2 = 0) (r : OperandRecord) :
    decode (.op (opWord n imm) r) = assembleOp n (opWord n imm) r := by
  simp only [decode, decodeOp, findOp_eq_some_iff.mpr (matches_opWord h)]

/-! ## Immediates with an operand (rules R98, R100) -/

theorem bitImm_operand (b : Bool) : bitImm b &&& 0xFE = 0 ∧ (bitImm b).getLsbD 0 = b := by
  cases b <;> decide

theorem bitImm_of_operand : ∀ imm : Byte, imm &&& 0xFE = 0 → bitImm (imm.getLsbD 0) = imm := by
  decide

theorem modeIndex_operand (m : Mode) : m.index &&& 0xF8 = 0 ∧ modeOfIndex (m.index.extractLsb' 0 3) = m := by
  cases m <;> decide

theorem modeIndex_of_operand : ∀ imm : Byte, imm &&& 0xF8 = 0 → (modeOfIndex (imm.extractLsb' 0 3)).index = imm := by
  decide

theorem dioIndex_operand (k : DioKind) : k.index &&& 0xFC = 0 ∧ dioOfIndex (k.index.extractLsb' 0 2) = some k := by
  cases k <;> decide

theorem dioIndex_of_operand : ∀ imm : Byte, imm &&& 0xFC = 0 → ∀ k ∈ dioOfIndex (imm.extractLsb' 0 2), k.index = imm := by
  decide

theorem line_operand : ∀ line : BitVec 2,
    line.setWidth 8 &&& (0xFC : Byte) = 0 ∧ (line.setWidth 8 : Byte).extractLsb' 0 2 = line := by
  decide

theorem line_of_operand : ∀ imm : Byte, imm &&& 0xFC = 0 → (imm.extractLsb' 0 2).setWidth 8 = imm := by
  decide

/-! ## Decoding what the encoder writes -/

theorem decode_spiRead {a : Byte} (h : a.toNat < 0x80) (v : Byte) : decode (.spi false [a, v]) = .ok (.spiRead a) := by
  simp only [decode, decodeSpi, (addrByte_read_iff a).mpr h, addrField_of_lt h]

theorem decode_spiWrite {a : Byte} (h : a.toNat < 0x80) (v : Byte) :
    decode (.spi false [0x80 ||| a, v]) = .ok (.spiWrite a v) := by
  simp only [decode, decodeSpi, writeByte_isWrite h, addrField_writeByte h]

theorem decode_spiBurstWrite {a : Byte} (h : a.toNat < 0x80) {data : List Byte} (hd : data.isEmpty = false) :
    decode (.spi true ((0x80 ||| a) :: data)) = .ok (.spiBurstWrite a data) := by
  cases data with
  | nil => cases hd
  | cons v vs => simp only [decode, decodeSpi, writeByte_isWrite h, addrField_writeByte h]

/-- A key that meets the condition of a row decodes to the row's operation. -/
theorem decode_key_of_wf (row : Row) {k : BitVec 16} (h : (row.instr k).wf = true) : decode (.eval k) = .ok (row.instr k) := by
  rw [decode, decodeKey_of_wf row k h]

/-- Settles O1: the decoder finds the row that the encoder took its word from, and the operands in their places. -/
theorem decodeInvertsEncode : Obligations.DecodeInvertsEncode := by
  intro i h
  cases i with
  | spiRead a => exact decode_spiRead (of_decide_eq_true h) 0
  | spiWrite a v => exact decode_spiWrite (of_decide_eq_true h) v
  | spiBurstWrite a data =>
    obtain ⟨addr, nonempty⟩ : a.toNat < 0x80 ∧ data.isEmpty = false := by simpa [Instr.wf] using h
    exact decode_spiBurstWrite addr nonempty
  | setRate crc sf =>
    obtain ⟨fits, operand⟩ := bitImm_operand crc
    rw [encode, decode_opWord fits, assembleOp, getLsbD_eq_opImm, opImm_opWord, operand]
  | setOpmode m =>
    obtain ⟨fits, operand⟩ := modeIndex_operand m
    rw [encode, decode_opWord fits, assembleOp, extractLsb'_eq_opImm _ (by decide), opImm_opWord, operand, withEmptyRecord]
  | setIq invert =>
    obtain ⟨fits, operand⟩ := bitImm_operand invert
    rw [encode, decode_opWord fits, assembleOp, getLsbD_eq_opImm, opImm_opWord, operand, withEmptyRecord]
  | clearIrq bits => rw [encode, decode_opWord BitVec.and_zero, assembleOp, opImm_opWord, withEmptyRecord]
  | setIrqMask mask => rw [encode, decode_opWord BitVec.and_zero, assembleOp, opImm_opWord, withEmptyRecord]
  | setDioMap k =>
    obtain ⟨fits, operand⟩ := dioIndex_operand k
    rw [encode, decode_opWord fits, assembleOp, extractLsb'_eq_opImm _ (by decide), opImm_opWord, operand]
    rfl
  | irqEdge line =>
    obtain ⟨fits, operand⟩ := line_operand line
    have assigned : line ≠ 3#2 := by simpa [Instr.wf] using h
    rw [encode, decode_opWord fits, assembleOp, extractLsb'_eq_opImm _ (by decide), opImm_opWord, operand, if_neg assigned,
      withEmptyRecord]
  | evInit key => exact decode_key_of_wf .init h
  | evScanDetect key => exact decode_key_of_wf .scanDetect h
  | evScanPromote key => exact decode_key_of_wf .scanPromote h
  | evScanDoneHop key => exact decode_key_of_wf .scanDoneHop h
  | evScanStay key => exact decode_key_of_wf .scanStay h
  | evScanTxreq key => exact decode_key_of_wf .scanTxreq h
  | evScanSofthop key => exact decode_key_of_wf .scanSofthop h
  | evScanIdle key => exact decode_key_of_wf .scanIdle h
  | evScanUnexpected key => exact decode_key_of_wf .scanUnexpected h
  | evCadDetect key => exact decode_key_of_wf .cadDetect h
  | evCadNextSf key => exact decode_key_of_wf .cadNextSf h
  | evCadExhausted key => exact decode_key_of_wf .cadExhausted h
  | evCadTxreq key => exact decode_key_of_wf .cadTxreq h
  | evCadSofthop key => exact decode_key_of_wf .cadSofthop h
  | evCadIdle key => exact decode_key_of_wf .cadIdle h
  | evCadUnexpected key => exact decode_key_of_wf .cadUnexpected h
  | evRxCrcerr key => exact decode_key_of_wf .rxCrcerr h
  | evRxHdrinv key => exact decode_key_of_wf .rxHdrinv h
  | evRxDone key => exact decode_key_of_wf .rxDone h
  | evRxTimeoutHop key => exact decode_key_of_wf .rxTimeoutHop h
  | evRxTimeout key => exact decode_key_of_wf .rxTimeout h
  | evRxHdrseen key => exact decode_key_of_wf .rxHdrseen h
  | evRxTxreq key => exact decode_key_of_wf .rxTxreq h
  | evRxSofttmo key => exact decode_key_of_wf .rxSofttmo h
  | evRxIdle key => exact decode_key_of_wf .rxIdle h
  | evRxUnexpected key => exact decode_key_of_wf .rxUnexpected h
  | evTxRun key => exact decode_key_of_wf .txRun h
  | evTxNoreq key => exact decode_key_of_wf .txNoreq h
  | evTxdDone key => exact decode_key_of_wf .txdDone h
  | evTxdTimeout key => exact decode_key_of_wf .txdTimeout h
  | evTxdWait key => exact decode_key_of_wf .txdWait h
  | evTxdUnexpected key => exact decode_key_of_wf .txdUnexpected h
  | evDefault key => exact decode_key_of_wf .default h
  | _ => rfl

/-! ## Encoding what the decoder accepts -/

theorem opWord_zero_of_matches {n : OpName} {w : BitVec 16} (h : n.matches w = true) (fixed : opImm n.matchMask.2 = 0xFF) :
    opWord n 0 = w := by
  obtain ⟨word, reserved⟩ := eq_opWord_of_matches h
  have none : opImm w = 0 := by
    rw [fixed] at reserved
    exact BitVec.and_allOnes.symm.trans reserved
  rw [word, none]

/-- An operation without operands, from a row that fixes its whole word. -/
theorem reEncode_withEmptyRecord {n : OpName} {w : BitVec 16} {r : OperandRecord} {i j : Instr} (h : n.matches w = true)
    (fixed : opImm n.matchMask.2 = 0xFF) (decoded : withEmptyRecord j r = .ok i) (wf : j.wf = true)
    (word : encode j = .op (opWord n 0) .empty) : i.wf = true ∧ encode i = .op w r := by
  obtain ⟨rfl, rfl⟩ := withEmptyRecord_ok decoded
  exact ⟨wf, word.trans (by rw [opWord_zero_of_matches h fixed])⟩

/-- The operation of a matched row is well formed, and the row's word with its record is what the encoder writes for it
(rules R96, R100, R103). -/
theorem reEncode_assembleOp {n : OpName} {w : BitVec 16} {r : OperandRecord} {i : Instr} (h : n.matches w = true)
    (decoded : assembleOp n w r = .ok i) : i.wf = true ∧ encode i = .op w r := by
  obtain ⟨word, reserved⟩ := eq_opWord_of_matches h
  have fixed := opWord_zero_of_matches h
  cases n
  case checkChipId | advanceChannel | evalPass | armScanner | armRxSingle | armRxCont | armListen | keyTx | recover | restart
      | forceScan | bringup | capturePacket | takePacket | readStats | readState =>
    exact reEncode_withEmptyRecord h rfl decoded rfl rfl
  case setFrequency | setPower | waitUntil | submitTx | configure | reset | clockAdvance =>
    cases r <;> cases decoded
    exact ⟨rfl, congrArg (Frame.op · _) (fixed rfl)⟩
  case setRate =>
    cases r <;> cases decoded
    refine ⟨rfl, ?_⟩
    rw [encode, getLsbD_eq_opImm, bitImm_of_operand _ reserved, ← word]
  case setOpmode =>
    obtain ⟨rfl, rfl⟩ := withEmptyRecord_ok decoded
    refine ⟨rfl, ?_⟩
    rw [encode, extractLsb'_eq_opImm _ (by decide), modeIndex_of_operand _ reserved, ← word]
  case setIq =>
    obtain ⟨rfl, rfl⟩ := withEmptyRecord_ok decoded
    refine ⟨rfl, ?_⟩
    rw [encode, getLsbD_eq_opImm, bitImm_of_operand _ reserved, ← word]
  case clearIrq | setIrqMask =>
    obtain ⟨rfl, rfl⟩ := withEmptyRecord_ok decoded
    exact ⟨rfl, congrArg (Frame.op · _) word.symm⟩
  case setDioMap =>
    simp only [assembleOp] at decoded
    split at decoded
    next k hk =>
      obtain ⟨rfl, rfl⟩ := withEmptyRecord_ok decoded
      rw [extractLsb'_eq_opImm _ (by decide)] at hk
      refine ⟨rfl, ?_⟩
      rw [encode, dioIndex_of_operand _ reserved k hk, ← word]
    next => cases decoded
  case irqEdge =>
    simp only [assembleOp] at decoded
    split at decoded
    next => cases decoded
    next assigned =>
      obtain ⟨rfl, rfl⟩ := withEmptyRecord_ok decoded
      refine ⟨bne_iff_ne.mpr assigned, ?_⟩
      rw [encode, extractLsb'_eq_opImm _ (by decide), line_of_operand _ reserved, ← word]

theorem encode_row (row : Row) (k : BitVec 16) : encode (row.instr k) = .eval k := by
  cases row <;> rfl

/-- An accepted bus frame is a read, whose data byte the chip drives, or the frame of its write (rules R90, R91). -/
theorem reEncode_spi {burst : Bool} {bytes : List Byte} {i : Instr} (decoded : decodeSpi burst bytes = .ok i) :
    i.wf = true ∧ (encode i = .spi burst bytes ∨
      ∃ a v : Byte, Frame.spi burst bytes = .spi false [a, v] ∧ i = .spiRead a ∧ encode i = .spi false [a, 0]) := by
  unfold decodeSpi at decoded
  split at decoded
  next => cases decoded
  next head data =>
    have addr : decide ((head &&& 0x7F).toNat < 0x80) = true := decide_eq_true (addrField_lt head)
    split at decoded
    next v isRead =>
      cases decoded
      have whole := addrField_of_lt ((addrByte_read_iff head).mp isRead)
      exact ⟨addr, .inr ⟨head, v, rfl, by rw [whole], by rw [encode, whole]⟩⟩
    next v isWrite =>
      cases decoded
      exact ⟨addr, .inl (by rw [encode, writeByte_addrField isWrite])⟩
    next v vs isWrite =>
      cases decoded
      exact ⟨by simpa [Instr.wf] using addrField_lt head, .inl (by rw [encode, writeByte_addrField isWrite])⟩
    next => cases decoded

/-- Settles O2: a word is its row's with the operands in their places, a key is its operation's own, and a bus frame is its
address byte and its data. -/
theorem acceptedFrameIsReEncoded : Obligations.AcceptedFrameIsReEncoded := by
  intro f i decoded
  cases f with
  | op w r =>
    simp only [decode, decodeOp] at decoded
    split at decoded
    next n found =>
      obtain ⟨wf, word⟩ := reEncode_assembleOp (findOp_eq_some_iff.mp found) decoded
      exact ⟨wf, .inl word⟩
    next => cases decoded
  | eval k =>
    cases decoded
    exact ⟨decodeKey_wf k, .inl (encode_row _ k)⟩
  | spi burst bytes => exact reEncode_spi decoded

/-! ## Decoding is unambiguous -/

/-- Settles O3: a key meets the condition of the row that it decodes to, and every operation on it that meets its own condition is
what it decodes to, by O1; two rows of format OP that match a word have one code. -/
theorem decodingIsUnambiguous : Obligations.DecodingIsUnambiguous := by
  refine ⟨fun k => ⟨(decodeKey k).instr k, rfl, encode_row _ k, decodeKey_wf k, fun j encoded wf => ?_⟩,
    fun w n m => matches_unique, fun w r unmatched => ?_⟩
  · have decoded := decodeInvertsEncode j wf
    rw [encoded] at decoded
    cases decoded
    rfl
  · rw [decode, decodeOp, findOp_eq_none_iff.mpr unmatched]
    exact ⟨_, rfl⟩

/-- A frame that the encoder writes for a well-formed operation decodes to it. -/
theorem decode_of_encode {f : Frame} {i : Instr} (wf : i.wf = true) (written : encode i = f) : decode f = .ok i :=
  written ▸ decodeInvertsEncode i wf

/-- Settles O4: each word is the one that the encoder writes for its operation, but for the data byte of the read. -/
theorem writtenOutWordsDecode : Obligations.WrittenOutWordsDecode := by
  refine ⟨decode_spiRead (by decide) 0x04, ?_⟩
  split_ands
  all_goals exact decode_of_encode rfl rfl

end Sys2Proof
end

section
/-! PROOF. What becomes of a frame that is refused or passed over (rules R103, R347, R381; log entries 18, 19 and 21). -/

namespace Sys2Proof.Machine

open Sys2Proof

/-- A frame of the FSM engine's side from another agent is refused (rules R103, R381). -/
theorem State.present_foreign {s : State} {ag : Agent} {f : Frame} (side : f.internal = true) (foreign : ag ≠ .fsmEngine) :
    s.present ag f = .done (s.refuse .internal) := by
  simp [State.present, side, foreign]

/-- A frame of the external interface that decodes to no operation is refused, whoever presents it (rules R102, R103). -/
theorem State.present_undecoded {s : State} {ag : Agent} {f : Frame} {e : DecodeError} (external : f.internal = false)
    (rejected : decode f = .error e) : s.present ag f = .done (s.refuse .badOp) := by
  simp [State.present, external, rejected]

/-- A step whose next input is a presented frame. -/
theorem step_of_present {s t : State} {ag : Agent} {f : Frame} {rest : List Input} (next : s.nextIs (.frame ag f) rest)
    (presented : ({ s with inbox := rest } : State).present ag f = .done t) : step s = .next t := by
  rw [step, State.fetch_nextIs next, State.receive, presented]

/-- Settles O7: a foreign frame, a frame that is no operation and an operation that the agent does not have each end the step as
soon as they are presented. -/
theorem refusedFramesChangeNothingElse : Obligations.RefusedFramesChangeNothingElse := by
  refine fun s ag f rest next => ⟨fun side foreign => ?_, fun external e rejected => ?_, fun external i decoded lacks => ?_⟩
  · exact step_of_present next (State.present_foreign side foreign)
  · exact step_of_present next (State.present_undecoded external rejected)
  · exact step_of_present next (State.present_passedOver decoded lacks external)

end Sys2Proof.Machine
end

section
/-! PROOF. Operations of one transaction: those of the accessor (rules R130 to R132), and SET_POWER with the two nibbles of its
value (rules R106, R145). -/

namespace Sys2Proof.Machine

open Sys2Proof

/-! ## The accessor (rules R130 to R132) -/

/-- Above 7 bits of address every transaction of the accessor faults. -/
theorem accessor_addrRange {a : Byte} (h : 0x7F < a.toNat) (v : Byte) (data : List Byte) (s : State) :
    spiRead a s = .error .addrRange ∧ spiWrite a v s = .error .addrRange ∧ spiBurst a data s = .error .addrRange :=
  ⟨if_pos h, if_pos h, if_pos h⟩

theorem spiBurst_nil {a : Byte} (s : State) (h : a.toNat < 0x80) : spiBurst a [] s = .error .emptyBurst :=
  if_neg (Nat.not_lt.mpr (Nat.le_of_lt_succ h))

theorem exec_spiRead (a : Byte) (s : State) :
    exec (.spiRead a) s = .next (s.settle ((spiRead a s).map fun p => p.2.answer (.byte p.1))) := rfl

theorem exec_spiWrite (a v : Byte) (s : State) : exec (.spiWrite a v) s = .next (s.settle (spiWrite a v s)) := rfl

theorem exec_spiBurstWrite (a : Byte) (data : List Byte) (s : State) :
    exec (.spiBurstWrite a data) s = .next (s.settle (spiBurst a data s)) := rfl

/-- The first byte of a write on the bus is `{1, A}` (rules R90, R91). -/
theorem writeByte_eq {a : Byte} (h : a.toNat < 0x80) : 0x80 ||| a = BitVec.ofNat 8 (0x80 + a.toNat) := by
  rw [← writeByte_toNat h, BitVec.ofNat_toNat, BitVec.setWidth_eq]

/-- Settles O12: within 7 bits an access is its transaction, except for a burst without data, and above it the fault. -/
theorem accessorMakesOneTransaction : Obligations.AccessorMakesOneTransaction := by
  refine fun a v data s => ⟨fun within => ?_, fun above => ?_⟩
  · have addr : a.toNat < 0x80 := Nat.lt_succ_of_le within
    refine ⟨?_, ?_, fun nonempty => ?_, fun empty => ?_, ?_, ?_, ?_⟩
    · rw [exec_spiRead, spiRead_of_lt a s addr]
      rfl
    · rw [exec_spiWrite, spiWrite_of_lt a v s addr]
      rfl
    · rw [exec_spiBurstWrite, spiBurst_of_lt a data s addr nonempty]
      rfl
    · rw [exec_spiBurstWrite, empty, spiBurst_nil s addr, State.settle_error]
    · exact congrArg (· :: [v]) (addrField_of_lt addr)
    · exact congrArg (· :: [v]) (writeByte_eq addr)
    · exact congrArg (· :: data) (writeByte_eq addr)
  · obtain ⟨read, write, burst⟩ := accessor_addrRange above v data s
    refine ⟨?_, ?_, ?_⟩
    · rw [exec_spiRead, read]
      rfl
    · rw [exec_spiWrite, write, State.settle_error]
    · rw [exec_spiBurstWrite, burst, State.settle_error]

/-! ## The PA register (rules R106, R145) -/

theorem exec_setPower (p : Byte) (s : State) : exec (.setPower p) s = .next (s.settle (setPower p s)) := rfl

/-- The clamped power is in 2..15, and so fits a nibble (rule R145). -/
theorem clampedPower_range (p : Byte) : 2 ≤ clamp p.toInt 2 15 ∧ clamp p.toInt 2 15 ≤ 15 := by
  unfold clamp
  omega

/-- A byte with a high nibble above a number of four bits. -/
theorem nibbles_toNat (high : BitVec 4) {low : Byte} (h : low.toNat < 16) :
    ((high.setWidth 8 <<< 4) ||| low).toNat = high.toNat * 16 + low.toNat := by
  have shifted : (high.setWidth 8 <<< 4 : Byte).toNat = high.toNat <<< 4 := by
    have := high.isLt
    rw [BitVec.toNat_shiftLeft, BitVec.toNat_setWidth, Nat.shiftLeft_eq]
    omega
  rw [BitVec.toNat_or, shifted, ← Nat.shiftLeft_add_eq_or_of_lt (i := 4) h, Nat.shiftLeft_eq]

/-- The value of the PA register is the family's nibble above the clamped power (rule R145). -/
theorem paValue_toNat (par : Params) (p : Byte) :
    ((paValue par p).toNat : ℤ) = (PerVariant.pick par.paHighNibble par.variant).toNat * 16 + clamp p.toInt 2 15 := by
  obtain ⟨low, high⟩ := clampedPower_range p
  have power : ((BitVec.ofInt 8 (clamp p.toInt 2 15)).toNat : ℤ) = clamp p.toInt 2 15 := by
    rw [BitVec.toNat_ofInt]
    omega
  rw [paValue, nibbles_toNat _ (by omega), Nat.cast_add, Nat.cast_mul, power]
  rfl

/-- Settles O19: in SLEEP or STANDBY the one write is of the register's value, whose nibbles are read off the sum. -/
theorem setPowerWritesClampedPower : Obligations.SetPowerWritesClampedPower := by
  intro s p mode
  have value := paValue_toNat s.par p
  obtain ⟨low, high⟩ := clampedPower_range p
  refine ⟨paValue s.par p, ?_, ?_, ?_⟩
  · rw [exec_setPower, setPower_ok p s (s.standbyHeld_iff.mpr mode)]
    rfl
  · change ((paValue s.par p).toNat % 16 : ℕ) = clamp p.toInt 2 15
    omega
  · omega

end Sys2Proof.Machine
end

section
/-! PROOF. The key of a pass and the state in which its row runs (rules R95, R173, R190 to R194). -/

namespace Sys2Proof.Machine

open Sys2Proof

/-- The conditions of TMO are read on re-baselined timestamps, which the pass's own start does not touch (rule R193). -/
theorem State.passSampled_tmo (s : State) : s.passSampled.tmo = s.rebaseline.tmo := rfl

/-- The RSSI register is read in SCAN, on CADDONE without CADDET (rule R192). -/
theorem State.readsRssi_iff (s : State) (f : Byte) :
    s.readsRssi f = true ↔ s.radioState = 1 ∧ f.getLsbD 0 = false ∧ f.getLsbD 2 = true := by
  simp [State.readsRssi, stScan, flagCaddet, flagCaddone, and_assoc]

/-- The secondary condition by radio state (rules R173, R192). -/
theorem State.secondary_iff (s : State) (f : Byte) :
    s.secondary f = true ↔
      (s.readsRssi f = true ∧ s.cadThreshold < ((s.regValue .rssiValue).toNat : ℤ)) ∨
      (s.radioState = 2 ∧ f.getLsbD 0 = false ∧ f.getLsbD 2 = true ∧ (s.planAt s.ch).maxSF ≤ s.sf) ∨
      (s.radioState = 3 ∧ f.getLsbD 6 = true ∧ (f.getLsbD 4 = true ∨ s.par.requireValidHeader = false)) := by
  unfold State.secondary
  split_ifs with reads cad rx
  · obtain ⟨scan, -, -⟩ := (s.readsRssi_iff f).mp reads
    simp [reads, scan]
  · simp [reads, show s.radioState = 2 from cad, flagCaddet, flagCaddone, and_assoc]
  · simp [reads, show s.radioState = 3 from rx, flagRxdone, flagHdrvalid]
  · simp [reads, show s.radioState ≠ 2#3 from cad, show s.radioState ≠ 3#3 from rx]

/-- The state in which a row runs, where the secondary condition read the RSSI register (rules R190 to R194). -/
theorem State.passReady_eq_of_read {s : State} (h : s.passSampled.readsRssi s.snapshotFlags = true) :
    s.passReady = (s.passSampled.readReg .rssiValue).stampEvent s.snapshotFlags := by
  rw [State.passReady, State.secondaryStep, if_pos h]

/-- The state in which a row runs, where the secondary condition read no register (rules R190 to R194). -/
theorem State.passReady_eq_of_noRead {s : State} (h : ¬s.passSampled.readsRssi s.snapshotFlags = true) :
    s.passReady = s.passSampled.stampEvent s.snapshotFlags := by
  rw [State.passReady, State.secondaryStep, if_neg h]

/-- Settles O29: the fields are where the key places them, and the prepared state depends on whether the RSSI register was
read. -/
theorem passFormsKeyFromSnapshot : Obligations.PassFormsKeyFromSnapshot := by
  intro s f r reads thr
  obtain ⟨state, flags, txq, sm, hop, tmo, x⟩ :=
    State.key_fields s.passSampled f s.passSampled.tmo (s.passSampled.secondary f)
  have reads_iff : s.passSampled.readsRssi f = true ↔ reads := s.passSampled.readsRssi_iff f
  refine ⟨state, flags, txq, sm, hop, tmo.trans s.passSampled_tmo, ?_, ?_⟩
  · rw [show s.passKey.getLsbD 12 = s.passSampled.secondary f from x, State.secondary_iff, reads_iff]
    rfl
  · by_cases read : reads
    · rw [if_pos read, if_pos read, if_pos read, State.passReady_eq_of_read (reads_iff.mpr read)]
      rfl
    · rw [if_neg read, if_neg read, if_neg read, State.passReady_eq_of_noRead (mt reads_iff.mp read), List.append_nil]
      rfl

end Sys2Proof.Machine
end

section
/-! PROOF. Modem configuration (41_modem_config.md): the frequency word read back (rules R140, R141), the rate registers (rules
R142 to R144), the clamp (rule R146), the precondition (rule R147), the mode register (rule R150), the operations of one write
(rules R152 to R156), and the identity check with the bring-up that it guards (rules R158, R372). -/

namespace Sys2Proof.Machine

open Sys2Proof

theorem exec_setRate (crc : Bool) (sf : Byte) (s : State) : exec (.setRate crc sf) s = .next (s.settle (setRate sf crc s)) :=
  rfl

theorem exec_setOpmode (m : Mode) (s : State) : exec (.setOpmode m) s = .next (s.setOpMode m) := rfl

theorem exec_checkChipId (s : State) :
    exec .checkChipId s = .next (s.checkChipId.answer (if s.chipIdMatches then .ok else .fail)) := rfl

theorem sfInRange_iff (sf : ℕ) : sfInRange sf = true ↔ 7 ≤ sf ∧ sf ≤ 12 := by
  simp [sfInRange]

/-! ## The frequency word, read back (rules R62, R140, R141) -/

/-- The three bytes of a word of 24 bits stand for the word (rule R62). -/
theorem frequencyBytes_toNat {frf : ℕ} (h : frf < 2 ^ 24) :
    (frequencyMsb frf).toNat * 65536 + (frequencyMid frf).toNat * 256 + (frequencyLsb frf).toNat = frf := by
  simp only [frequencyMsb, frequencyMid, frequencyLsb, BitVec.toNat_ofNat]
  omega

/-- The word is the floor of the frequency in steps of 32 000 000 / 2^19 Hz (rule R140). -/
theorem frequencyWord_floor (hz : BitVec 32) :
    frequencyWord hz * 32000000 ≤ hz.toNat * 2 ^ 19 ∧ hz.toNat * 2 ^ 19 < (frequencyWord hz + 1) * 32000000 := by
  unfold frequencyWord
  omega

/-- What the floored word stands for is not above the frequency, and less than one step below it (rule R141). -/
theorem frequencyWord_error (hz : BitVec 32) :
    0 ≤ (hz.toNat : ℚ) - (frequencyWord hz : ℚ) * 32000000 / 2 ^ 19 ∧
      (hz.toNat : ℚ) - (frequencyWord hz : ℚ) * 32000000 / 2 ^ 19 < 61.03515625 := by
  obtain ⟨low, high⟩ := frequencyWord_floor hz
  have low : (frequencyWord hz : ℚ) * 32000000 ≤ hz.toNat * 2 ^ 19 := by exact_mod_cast low
  have high : (hz.toNat : ℚ) * 2 ^ 19 < (frequencyWord hz + 1) * 32000000 := by exact_mod_cast high
  constructor <;> linarith

/-- Settles O16: the bytes stand for the floored word, whose distance to the frequency is less than one step. -/
theorem frequencyRoundTrip : Obligations.FrequencyRoundTrip := by
  intro s hz standby below
  have held := s.standbyHeld_iff.mpr (.inr standby)
  have bytes := frequencyBytes_toNat ((frequencyWord_lt_iff hz).mpr below)
  obtain ⟨notAbove, withinStep⟩ := frequencyWord_error hz
  refine ⟨frequencyMsb (frequencyWord hz), frequencyMid (frequencyWord hz), frequencyLsb (frequencyWord hz),
    (frequencyWord hz : ℚ) * 32000000 / 2 ^ 19, ?_, by rw [bytes], notAbove, withinStep, fun vector => ?_⟩
  · rw [exec_setFrequency, setFrequency_eq, if_pos held, if_pos below, State.settle_ok]
    apply congrArg Host.Outcome.next
    apply State.ext <;> simp
  · rw [frequencyWord, vector]
    norm_num

/-! ## The precondition of a reconfiguration (rule R147) -/

/-- Settles O14: the precondition stands before every write, and behind the range check of SET_RATE alone. -/
theorem reconfigurationNeedsStandby : Obligations.ReconfigurationNeedsStandby := by
  intro s hz sf p crc notSleep notStandby
  have notHeld : ¬s.standbyHeld = true := mt s.standbyHeld_iff.mp (not_or.mpr ⟨notSleep, notStandby⟩)
  refine ⟨?_, ?_, fun inRange => ?_⟩
  · rw [exec_setFrequency, setFrequency_eq, if_neg notHeld, State.settle_error]
  · rw [exec_setPower, setPower_eq, if_neg notHeld, State.settle_error]
  · rw [exec_setRate, setRate_eq, if_pos ((sfInRange_iff _).mpr inRange), if_neg notHeld, State.settle_error]

/-! ## The rate (rules R142 to R144) -/

/-- The second rate register is the SF above the entry's low nibble (rule R142). -/
theorem rateMc2_toNat (par : Params) {sf : Byte} (h : sf.toNat ≤ 12) (crc : Bool) :
    (rateMc2 par sf crc).toNat = sf.toNat * 16 + (rateEntry par sf.toNat crc).mc2Low.toNat := by
  have low : ((rateEntry par sf.toNat crc).mc2Low.setWidth 8 : Byte).toNat = (rateEntry par sf.toNat crc).mc2Low.toNat :=
    BitVec.toNat_setWidth_of_le (by decide)
  have nibble : (sf.setWidth 4).toNat = sf.toNat := by
    rw [BitVec.toNat_setWidth]
    omega
  have whole : ((sf.setWidth 4).setWidth 8 : Byte) = sf := by
    apply BitVec.eq_of_toNat_eq
    rw [BitVec.toNat_setWidth, nibble]
    omega
  have value := nibbles_toNat (sf.setWidth 4) (low.trans_lt (rateEntry par sf.toNat crc).mc2Low.isLt)
  rwa [whole, nibble, low] at value

/-- SET_RATE of an SF in range, where its entry and symbol timeout are known (rules R142, R144). -/
theorem exec_setRate_writes {s : State} (held : s.standbyHeld = true) {sf : Byte} (inRange : 7 ≤ sf.toNat ∧ sf.toNat ≤ 12)
    {crc : Bool} {entry : Rate} {timeout : Byte} (he : rateEntry s.par sf.toNat crc = entry)
    (ht : symbTimeout s.par sf.toNat = timeout) : ∃ mc2 : Byte,
      exec (.setRate crc sf) s = .next { s with
        history := s.history ++ [s.wrote .modemConfig1 entry.mc1, s.wrote .modemConfig2 mc2,
          s.wrote .modemConfig3 entry.mc3, s.wrote .symbTimeoutLsb timeout] } ∧
      mc2.toNat / 16 = sf.toNat ∧ mc2.toNat % 16 = entry.mc2Low.toNat := by
  subst he ht
  have value := rateMc2_toNat s.par inRange.2 crc
  have low := (rateEntry s.par sf.toNat crc).mc2Low.isLt
  refine ⟨rateMc2 s.par sf crc, ?_, by omega, by omega⟩
  rw [exec_setRate, setRate_ok sf crc s held, State.settle_ok]
  simp [State.appended, State.rateEvents, State.rateLog, inRange]

/-- Settles O17: the entry and the timeout of each SF are the family's, table by table. -/
theorem setRateWritesFourRegisters : Obligations.SetRateWritesFourRegisters := by
  intro s crc mode tables table long short
  have held := s.standbyHeld_iff.mpr mode
  simp only [List.forall_mem_cons]
  refine ⟨?_, ?_, ?_, ?_, ?_, ?_, List.forall_mem_nil _⟩ <;>
    exact exec_setRate_writes held (by decide) rfl rfl

/-- Settles O18: the range check stands before the precondition. -/
theorem setRateRejectsSfOutOfRange : Obligations.SetRateRejectsSfOutOfRange := by
  intro s sf crc outOfRange
  rw [exec_setRate, setRate_eq, if_neg (mt (sfInRange_iff _).mp outOfRange), State.settle_ok]
  rfl

/-! ## The power (rules R145, R146) -/

/-- A value in the range is its own clamp. -/
theorem clamp_of_mem {x lo hi : ℤ} (h : lo ≤ x ∧ x ≤ hi) : clamp x lo hi = x := by
  rw [clamp, max_eq_left h.1, min_eq_left h.2]

/-- Settles O20: the register's value depends on the clamped power alone, and the clamp leaves that one as it is. -/
theorem setPowerIsIdempotentUnderClamp : Obligations.SetPowerIsIdempotentUnderClamp := by
  intro s p q clamped
  have q_eq : q.toInt = clamp p.toInt 2 15 := clamped
  have value : paValue s.par p = paValue s.par q := by
    rw [paValue, paValue, q_eq, clamp_of_mem (clampedPower_range p)]
  rw [exec_setPower, exec_setPower, setPower_eq, setPower_eq, value]

/-! ## The words of the operations (rules R96, R98, R100) -/

/-- A row's word is the sum of its code's and its immediate. -/
theorem opWord_eq_add (n : OpName) (imm : Byte) : n.matchMask.1 + imm.setWidth 16 = opWord n imm := by
  apply BitVec.add_eq_or_of_and_eq_zero
  have code : opCode (imm.setWidth 16) = 0 := by
    apply BitVec.eq_of_getLsbD_eq
    intro i hi
    simp [opCode]
  rw [word_eq_iff_parts, opCode_and, opImm_and, code, (matchMask_parts n).2]
  exact ⟨BitVec.and_zero, BitVec.zero_and⟩

/-- The encoder's frame of a well-formed operation, however the frame is written. -/
theorem decode_of_encode {f : Frame} {i : Instr} (wf : i.wf = true) (word : f = encode i) : decode f = .ok i :=
  word ▸ decodeInvertsEncode i wf

/-- A row's word whose immediate has a bit that the row reserves is no operation (rules R96, R103). -/
theorem decode_opWord_reserved {n : OpName} {imm : Byte} (h : imm &&& opImm n.matchMask.2 ≠ 0) (r : OperandRecord) :
    ∃ e, decode (.op (opWord n imm) r) = .error e := by
  have unmatched : findOp (opWord n imm) = none := by
    refine findOp_eq_none_iff.mpr fun m => Bool.eq_false_iff.mpr fun matched => h ?_
    obtain ⟨code, reserved⟩ := (matches_iff m _).mp matched
    rw [opCode_opWord] at code
    rwa [opImm_opWord, ← rowCode_injective code] at reserved
  simp only [decode, decodeOp, unmatched]
  exact ⟨_, rfl⟩

/-- The modes have 3 bits of the immediate: a larger one has a reserved bit (rules R98, R100). -/
theorem modeImm_reserved : ∀ imm : Byte, 8 ≤ imm.toNat → imm &&& 0xF8 ≠ 0 := by
  decide

/-! ## The mode register (rules R98, R150) -/

/-- A code of the mode map has no bit outside the mask (rule R150). -/
theorem modeCode_outside (map : ModeMap) (m : Mode) : modeCode map m &&& ~~~map.mask = 0 := by
  have fit : ∀ c ∈ [map.sleep, map.standby, map.fstx, map.tx, map.fsrx, map.rxCont, map.rxSingle, map.cad],
      c &&& ~~~map.mask = 0 := by simpa using map.codesFit
  apply fit
  cases m <;> simp [modeCode]

/-- An update of the bits under a mask: the others keep the old value, and those under the mask take the code's (rule R150). -/
theorem maskedUpdate {mask code : Byte} (fits : code &&& ~~~mask = 0) (old : Byte) :
    ((old &&& ~~~mask) ||| code) &&& ~~~mask = old &&& ~~~mask ∧ ((old &&& ~~~mask) ||| code) &&& mask = code := by
  constructor <;>
  · apply BitVec.eq_of_getLsbD_eq
    intro i hi
    have bit : (code.getLsbD i && !mask.getLsbD i) = false := by simpa [hi] using congrArg (·.getLsbD i) fits
    cases under : mask.getLsbD i <;> simp_all

/-- Bytes that agree outside a mask agree on a flag that lies outside it. -/
theorem flag_eq_of_outside {mask flag new old : Byte} (agree : new &&& ~~~mask = old &&& ~~~mask) (outside : flag &&& mask = 0) :
    new &&& flag = old &&& flag := by
  apply BitVec.eq_of_getLsbD_eq
  intro i hi
  have agreeBit : (new.getLsbD i && !mask.getLsbD i) = (old.getLsbD i && !mask.getLsbD i) := by
    simpa [hi] using congrArg (·.getLsbD i) agree
  have flagBit : (flag.getLsbD i && mask.getLsbD i) = false := by simpa using congrArg (·.getLsbD i) outside
  cases under : mask.getLsbD i <;> simp_all

/-- SET_OPMODE in closed form (rule R150). -/
theorem State.setOpMode_eq (s : State) (m : Mode) :
    s.setOpMode m = { s with
      history := s.history ++ [s.didRead .opMode (s.regValue .opMode),
        s.wrote .opMode (opModeValue s.par (s.regValue .opMode) m)]
      chipAnswers := (s.readReg .opMode).chipAnswers
      draws := (s.readReg .opMode).draws
      modeShadow := .known m } := by
  apply State.ext <;> simp [State.modeEvents, opModeValue]

/-- Settles O21: the words are the encoder's and have no reserved bit, and the value written is the masked update of the value
read. -/
theorem setOpModeReadsModifiesWrites : Obligations.SetOpModeReadsModifiesWrites := by
  refine ⟨fun b large => ?_, fun s m => ⟨?_, opModeValue s.par (s.regValue .opMode) m, ?_, ?_⟩⟩
  · exact opWord_eq_add .setOpmode b ▸ decode_opWord_reserved (modeImm_reserved b large) .empty
  · cases m <;> exact decode_of_encode rfl rfl
  · rw [exec_setOpmode, State.setOpMode_eq]
  · obtain ⟨kept, changed⟩ := maskedUpdate (modeCode_outside s.par.modes m) (s.regValue .opMode)
    exact ⟨kept, flag_eq_of_outside kept s.par.modes.loraKept, changed⟩

/-! ## Operations of one write (rules R152, R154 to R156) -/

/-- Settles O22: each word is the one that the encoder writes for its operation, and each operation is its write. -/
theorem plainRegisterWrites : Obligations.PlainRegisterWrites := by
  intro s invert bits k
  refine ⟨?_, rfl, ?_, rfl, ?_, rfl, ?_, ?_⟩
  · cases invert <;> exact decode_of_encode rfl rfl
  · exact opWord_eq_add .clearIrq bits ▸ decodeInvertsEncode (.clearIrq bits) rfl
  · exact opWord_eq_add .setIrqMask bits ▸ decodeInvertsEncode (.setIrqMask bits) rfl
  · cases k <;> exact decode_of_encode rfl rfl
  · cases k <;> rfl

/-! ## The identity check and bring-up (rules R158, R372) -/

theorem State.chipIdMatches_iff (s : State) :
    s.chipIdMatches = true ↔ s.regValue .version = PerVariant.pick s.par.expectedChipId s.par.variant := by
  rw [State.chipIdMatches, beq_iff_eq]

theorem decode_checkChipId : decode (.op 0x2800 .empty) = .ok .checkChipId := rfl

/-- A mismatch of the identity (rule R158). -/
theorem State.checkChipId_of_mismatch {s : State} (h : ¬s.chipIdMatches = true) :
    s.checkChipId = { s.readReg .version with
      halted := true
      log := s.log ++ [⟨.chipId, [(s.regValue .version).toNat], s.clock⟩] } := by
  rw [State.checkChipId, if_neg h]
  rfl

/-- Settles O23: the value read decides between the read alone and the halt. -/
theorem checkChipIdHaltsOnMismatch : Obligations.CheckChipIdHaltsOnMismatch := by
  refine ⟨decode_checkChipId, fun s v read => ⟨fun expected => ?_, fun unexpected => ?_⟩⟩
  · have matched := s.chipIdMatches_iff.mpr (read.trans expected)
    rw [exec_checkChipId, State.checkChipId, if_pos matched, if_pos matched]
    rfl
  · have mismatched := mt s.chipIdMatches_iff.mp (read ▸ unexpected)
    rw [exec_checkChipId, State.checkChipId_of_mismatch mismatched, if_neg mismatched, read]
    rfl

/-- The checks on a configuration record (rules R305, R372). -/
theorem configValid_iff (n : ℕ) (c : CfgRecord) :
    configValid n c = true ↔ (7 ≤ c.sf.toNat ∧ c.sf.toNat ≤ 12) ∧ c.hop.toNat ≤ 1 ∧ c.cad.toNat ≤ 1 ∧ c.ch < n ∧
      (c.hop.toNat = 1 → 3 ≤ n) := by
  have hop : c.hop = 1 ↔ c.hop.toNat = 1 := BitVec.toNat_inj.symm
  simp only [configValid, Bool.and_eq_true, Bool.or_eq_true, decide_eq_true_eq, bne_iff_ne, sfInRange_iff, ne_eq, hop,
    imp_iff_not_or, and_assoc]

/-- BRINGUP where it is enabled (rule R372). -/
theorem exec_bringup {s : State} (h : s.bringupEnabled = true) : exec .bringup s = .next (s.settle (bringup s)) :=
  congrArg Host.Outcome.next (if_pos h)

/-- Settles O58: the checks on `Cfg0` stand first, then the identity's, and what follows has a closed form. -/
theorem bringupBootsOrHalts : Obligations.BringupBootsOrHalts := by
  intro s unbooted running noFault v valid
  have valid_iff : configValid s.numChannels s.cfg0 = true ↔ valid := configValid_iff _ _
  rw [exec_bringup (by simp [State.bringupEnabled, unbooted, running, noFault])]
  refine ⟨fun invalid => ?_, fun isValid unexpected => ?_, fun isValid expected => ?_⟩
  · have fails : bringup s = .error .cfg0Invalid := if_pos (by simpa using mt valid_iff.mp invalid)
    rw [fails, State.settle_error, State.raiseFault, noFault]
    rfl
  · have mismatched := mt s.chipIdMatches_iff.mp unexpected
    have halts : bringup s = .ok s.checkChipId := by
      simp [bringup, valid_iff.mpr isValid, mismatched]
    rw [halts, State.settle_ok, State.checkChipId_of_mismatch mismatched]
  · have matched := s.chipIdMatches_iff.mpr expected
    have boots : bringup s = .ok s.checkChipId.bringupConfigure := by
      simp [bringup, valid_iff.mpr isValid, matched]
    rw [boots, State.settle_ok, bringupConfigure_eq s matched]

end Sys2Proof.Machine
end

section
/-! PROOF. The hop controller (42_hop_controller.md): the channel cycle (rules R170, R171), re-baselining (rule R175), the soft
timeouts (rules R176 to R179), and the channel that stays where it is without hopping (rule R172). -/

namespace Sys2Proof.Machine

open Sys2Proof

/-! ## The channel cycle (rules R170, R171) -/

theorem decode_advanceChannel : decode (.op 0x3000 .empty) = .ok .advanceChannel := rfl

theorem exec_advanceChannel (s : State) : exec .advanceChannel s = .next s.hopped := rfl

/-- Settles O24: the state hopped to is the one the statement writes out. -/
theorem advanceChannelStepsIndex : Obligations.AdvanceChannelStepsIndex :=
  ⟨decode_advanceChannel, exec_advanceChannel⟩

/-- After `k` hops of a plan the channel index stands `k` further, around the plan. -/
theorem hopped_ch_iterate {run : ℕ → State} (hops : ∀ k, run (k + 1) = (run k).hopped)
    (start : (run 0).ch < (run 0).numChannels) (k : ℕ) :
    (run k).numChannels = (run 0).numChannels ∧ (run k).ch = ((run 0).ch + k) % (run 0).numChannels := by
  induction k with
  | zero => exact ⟨rfl, (Nat.mod_eq_of_lt start).symm⟩
  | succ k ih =>
    obtain ⟨samePlan, index⟩ := ih
    have next : (run (k + 1)).ch = ((run k).ch + 1) % (run k).numChannels := by rw [hops]; rfl
    refine ⟨by rw [hops, ← samePlan]; rfl, ?_⟩
    rw [next, samePlan, index, Nat.mod_add_mod, Nat.add_assoc]

/-- Settles O25: by induction on the number of hops, and `N` hops are one turn around the plan. -/
theorem advanceChannelIsCyclic : Obligations.AdvanceChannelIsCyclic := by
  intro run step start
  have hops : ∀ k, run (k + 1) = (run k).hopped := fun k => by
    have := step k
    rw [exec_advanceChannel] at this
    exact (Host.Outcome.next.inj this).symm
  refine ⟨?_, fun k => by rw [hops]; rfl⟩
  rw [(hopped_ch_iterate hops start _).2, Nat.add_mod_right, Nat.mod_eq_of_lt start]

/-! ## Re-baselining (rule R175) -/

theorem rebased_le (now t : ℕ) : rebased now t ≤ now := by
  unfold rebased
  split <;> omega

/-- The time elapsed since a stored time that is not ahead of the clock does not wrap (rule R175). -/
theorem State.elapsed_of_le {s : State} {t : ℕ} (h : t ≤ s.clock) : (s.elapsed t : ℤ) = (s.clock : ℤ) - t := Int.ofNat_sub h

/-- Settles O26: both timestamps are at most the clock afterwards. -/
theorem rebaselineNeverGoesNegative : Obligations.RebaselineNeverGoesNegative := fun s =>
  ⟨rfl, State.elapsed_of_le (rebased_le s.clock s.eventTime), State.elapsed_of_le (rebased_le s.clock s.doneTime)⟩

/-! ## The soft timeouts (rules R176 to R179) -/

theorem State.tmo_of_scan {s : State} (h : s.radioState = 1) :
    s.tmo = true ↔ s.cfgHop = true ∧ sfEntry s.par.doneWaitScan s.sf.toNat < s.elapsed s.doneTime := by
  simp [State.tmo, h, stScan]

theorem State.tmo_of_cad {s : State} (h : s.radioState = 2) :
    s.tmo = true ↔ s.cfgHop = true ∧ sfEntry s.par.doneWaitCad s.sf.toNat < s.elapsed s.doneTime := by
  simp [State.tmo, h, stScan, stCad]

theorem State.tmo_of_rx {s : State} (h : s.radioState = 3) :
    s.tmo = true ↔ s.cfgHop = true ∧ sfEntry s.par.eventWait s.sf.toNat < s.elapsed s.eventTime := by
  simp [State.tmo, h, stScan, stCad, stRx]

theorem State.tmo_of_txDone {s : State} (h : s.radioState = 5) :
    s.tmo = true ↔ Config.txDoneTimeout < s.elapsed s.eventTime := by
  simp [State.tmo, h, stScan, stCad, stRx, stTxDone]

theorem State.tmo_of_untimed {s : State} (h : s.radioState = 0 ∨ s.radioState = 4 ∨ s.radioState = 6 ∨ s.radioState = 7) :
    s.tmo = false := by
  rcases h with h | h | h | h <;> simp [State.tmo, h, stScan, stCad, stRx, stTxDone]

/-- The row of an SF in the list of three tables holds the entries that the tables have for it. -/
theorem sfEntries_of_mem {α : Type} (a b c : PerSf α) {e : BitVec 4 × α × α × α}
    (h : e ∈ [((7 : BitVec 4), a.sf7, b.sf7, c.sf7), (8, a.sf8, b.sf8, c.sf8), (9, a.sf9, b.sf9, c.sf9),
      (10, a.sf10, b.sf10, c.sf10), (11, a.sf11, b.sf11, c.sf11), (12, a.sf12, b.sf12, c.sf12)]) :
    e.2 = (sfEntry a e.1.toNat, sfEntry b e.1.toNat, sfEntry c e.1.toNat) := by
  simp only [List.mem_cons, List.not_mem_nil, or_false] at h
  rcases h with rfl | rfl | rfl | rfl | rfl | rfl <;> rfl

/-- Settles O27: each state's condition with the waits that the SF selects. -/
theorem softTimeoutConditions : Obligations.SoftTimeoutConditions := by
  intro s _ _
  refine ⟨fun e mem sf => ?_, State.tmo_of_txDone, State.tmo_of_untimed⟩
  rw [sfEntries_of_mem _ _ _ mem, ← sf]
  exact ⟨State.tmo_of_scan, State.tmo_of_cad, State.tmo_of_rx⟩

/-! ## What leaves the channel (rule R172) -/

@[simp] theorem State.scanning_ch (s : State) : s.scanning.ch = s.ch := rfl

@[simp] theorem State.listening_ch (s : State) : s.listening.ch = s.ch := by
  unfold State.listening
  split <;> simp

@[simp] theorem State.recovered_ch (s : State) (k : BitVec 16) : (s.recovered k).ch = s.ch := State.listening_ch _

@[simp] theorem State.logged_ch (s : State) (code : LogCode) (info : List ℕ) : (s.logged code info).ch = s.ch := rfl

@[simp] theorem State.singleArmed_ch (s : State) : s.singleArmed.ch = s.ch := rfl

@[simp] theorem State.captured_ch (s : State) : s.captured.ch = s.ch := rfl

theorem State.waitUntil_ch (s : State) (target : ℕ) (sf : Byte) : (s.waitUntil target sf).ch = s.ch := by
  unfold State.waitUntil
  split <;> simp

/-- A sequence that came through has come through its first part. -/
theorem bind_eq_ok {r : Except FaultName State} {f : State → Except FaultName State} {t : State} (h : r >>= f = .ok t) :
    ∃ u, r = .ok u ∧ f u = .ok t := by
  cases r with
  | error e => cases h
  | ok u => exact ⟨u, rfl, h⟩

section

variable {s t : State}

theorem setFrequency_ch {hz : BitVec 32} (h : setFrequency hz s = .ok t) : t.ch = s.ch := by
  rw [setFrequency_eq] at h
  split_ifs at h
  cases h
  simp

theorem setRate_ch {sf : Byte} {crc : Bool} (h : setRate sf crc s = .ok t) : t.ch = s.ch := by
  rw [setRate_eq] at h
  split_ifs at h <;> cases h <;> simp

theorem setPower_ch {p : Byte} (h : setPower p s = .ok t) : t.ch = s.ch := by
  rw [setPower_eq] at h
  split_ifs at h
  cases h
  simp

theorem spiBurst_ch {a : Byte} {data : List Byte} (h : spiBurst a data s = .ok t) : t.ch = s.ch := by
  unfold spiBurst at h
  split_ifs at h
  cases h
  simp

/-- The keying of any request, one that SUBMIT_TX would refuse included (rules R205, R260). -/
theorem txKey_ch (h : txKey s = .ok t) : t.ch = s.ch := by
  obtain ⟨keyed, hk, ⟨⟩⟩ := bind_eq_ok h
  obtain ⟨tuned, hf, hk⟩ := bind_eq_ok hk
  obtain ⟨rated, hr, hk⟩ := bind_eq_ok hk
  obtain ⟨powered, hp, hk⟩ := bind_eq_ok hk
  obtain ⟨loaded, hb, ⟨⟩⟩ := bind_eq_ok hk
  simp [spiBurst_ch hb, setPower_ch hp, setRate_ch hr, setFrequency_ch hf]

/-- A transmission, suspended, keyed or discarded (rule R260). -/
theorem txRun_ch (h : txRun s = .ok t) : t.ch = s.ch := by
  have waited : (s.txPrepare.waitUntil s.outbound.target s.outbound.sf).ch = s.ch := State.waitUntil_ch _ _ _
  simp only [txRun, txDrop_eq] at h
  split at h
  · cases h
    exact waited
  · exact (txKey_ch h).trans waited
  · split at h
    · cases h
      exact (State.listening_ch _).trans waited
    · exact (txKey_ch h).trans waited

/-- Where the block does not hop, a row that finds what it relies on is not one that advances the channel (rules R172, R234, R237,
R244, R250, R254). -/
theorem rowOutcome_ch {row : Row} {k : BitVec 16} (fixed : s.cfgHop = false) (relies : rowRelies s row)
    (ht : rowTransmits row = false) : (rowOutcome row k s).ch = s.ch := by
  cases row
  case scanTxreq | cadTxreq | rxTxreq | txRun => cases ht
  case scanDoneHop | scanSofthop => exact absurd (relies.2.symm.trans fixed) nofun
  case cadSofthop | rxTimeoutHop | rxSofttmo => exact absurd (relies.symm.trans fixed) nofun
  all_goals simp [rowOutcome]

theorem runRow_ch {row : Row} {k : BitVec 16} (fixed : s.cfgHop = false) (relies : rowRelies s row)
    (h : runRow row k s = .ok t) : t.ch = s.ch := by
  by_cases ht : rowTransmits row = true
  · cases row
    case scanTxreq | cadTxreq | rxTxreq => exact txRun_ch (s := s.setState stTx) h
    case txRun => exact txRun_ch h
    all_goals cases ht
  · rw [runRow_eq row k s (absurd · ht)] at h
    cases h
    exact rowOutcome_ch fixed relies (by simpa using ht)

theorem evalPass_ch (fixed : s.cfgHop = false) (h : evalPass s = .ok t) : t.ch = s.ch := by
  have ready := s.passReady_frame
  unfold evalPass at h
  cases row : runRow (decodeKey s.passKey) s.passKey s.passReady with
  | error f => simp [row, Except.map] at h
  | ok u =>
    rw [row] at h
    cases h
    have left := runRow_ch (by simpa [ready] using fixed) s.passReady_relies row
    simpa [ready] using left

/-- A model fault leaves the channel too (rule R346). -/
theorem settle_ch {r : Except FaultName State} (h : ∀ u, r = .ok u → u.ch = s.ch) : (s.settle r).ch = s.ch := by
  cases r with
  | error f => simp
  | ok u => exact h u rfl

end

/-- Settles O28: a row that advances the channel is selected by a key with HOP or TMO, which a block without hopping does not
form. -/
theorem channelIsPinnedWithoutHopping : Obligations.ChannelIsPinnedWithoutHopping := by
  rintro s t fixed ⟨⟩
  split
  · exact settle_ch fun _ => evalPass_ch fixed
  · rfl

end Sys2Proof.Machine
end

section
/-! PROOF. The FSM engine (43_fsm_pass.md): its turn (rules R190, R196, R372), what a pass needs and what it does (rules R190,
R195, R230), its silence while it is blocked (rules R195, R283, R331, R346), and the arming sequences (rules R200 to R207). -/

namespace Sys2Proof.Machine

open Sys2Proof

/-! ## The precondition of a pass (rules R190, R195) -/

theorem State.passEnabled_iff (s : State) :
    s.passEnabled = true ↔ s.halted = false ∧ s.booted = true ∧ s.passActive = false ∧ s.faults = [] := by
  simp [State.passEnabled, and_assoc]

theorem exec_evalPass {s : State} (h : s.passEnabled = true) : exec .evalPass s = .next (s.settle (evalPass s)) :=
  congrArg Host.Outcome.next (if_pos h)

theorem exec_evalPass_of_not_enabled {s : State} (h : ¬s.passEnabled = true) : exec .evalPass s = .next s :=
  congrArg Host.Outcome.next (if_neg h)

/-- Settles O31: each of the four conditions denies one that a pass needs. -/
theorem evalPassNeedsItsPrecondition : Obligations.EvalPassNeedsItsPrecondition := by
  intro s blocked
  refine exec_evalPass_of_not_enabled fun enabled => ?_
  obtain ⟨running, booted, ended, noFault⟩ := s.passEnabled_iff.mp enabled
  rcases blocked with halted | fault | unbooted | active
  · exact absurd (running.symm.trans halted) nofun
  · exact fault noFault
  · exact absurd (unbooted.symm.trans booted) nofun
  · exact absurd (ended.symm.trans active) nofun

/-! ## The engine's turn (rules R190, R196, R283, R372) -/

theorem State.bringupEnabled_iff (s : State) :
    s.bringupEnabled = true ↔ s.booted = false ∧ s.halted = false ∧ s.faults = [] := by
  simp [State.bringupEnabled, and_assoc]

theorem State.engineStep_bringup {s : State} (free : s.engineFree = true) (enabled : s.bringupEnabled = true) :
    s.engineStep = .run .bringup s := by
  rw [State.engineStep, if_pos free, if_pos enabled]

theorem State.engineStep_pass {s : State} (free : s.engineFree = true) (up : ¬s.bringupEnabled = true)
    (enabled : s.passEnabled = true) : s.engineStep = .run .evalPass s := by
  rw [State.engineStep, if_pos free, if_neg up, if_pos enabled]

/-- In the engine's turn a step is the engine's own, behind the schedule's entry for it where there is one (log entry 9). -/
theorem State.fetch_engineTurn {s : State} {rest : List Input} (h : s.engineTurn rest) :
    s.fetch = ({ s with inbox := rest } : State).engineStep := by
  obtain ⟨noneWaits, next | ⟨empty, rfl⟩⟩ := h
  · exact State.fetch_nextIs ⟨noneWaits, next⟩
  · have same : ({ s with inbox := [] } : State) = s := by rw [← empty]
    rw [State.fetch, noneWaits, empty, same]

/-- Settles O6: the engine is free, and whether the block has booted selects between its two operations. -/
theorem engineTurnRunsBringupOrPass : Obligations.EngineTurnRunsBringupOrPass := by
  intro s rest turn running noFault idle
  have free : ({ s with inbox := rest } : State).engineFree = true :=
    (State.engineFree_iff _).mpr ⟨running, noFault, idle⟩
  refine ⟨fun unbooted => ?_, fun booted ended => ?_⟩
  · have enabled : ({ s with inbox := rest } : State).bringupEnabled = true :=
      (State.bringupEnabled_iff _).mpr ⟨unbooted, running, noFault⟩
    rw [step, State.fetch_engineTurn turn, State.engineStep_bringup free enabled]
  · have up : ¬({ s with inbox := rest } : State).bringupEnabled = true := fun h =>
      absurd (((State.bringupEnabled_iff _).mp h).1.symm.trans booted) nofun
    have enabled : ({ s with inbox := rest } : State).passEnabled = true :=
      (State.passEnabled_iff _).mpr ⟨running, booted, ended, noFault⟩
    rw [step, State.fetch_engineTurn turn, State.engineStep_pass free up enabled]

/-! ## The blocked engine (rules R195, R283, R331, R346) -/

/-- The engine is halted, or a model fault is recorded, or the transmit wait lasts. -/
def State.blocked (s : State) : Prop := s.halted = true ∨ s.faults ≠ [] ∨ ∃ adj, s.txPhase = .waiting adj

/-- What blocks an engine that is neither halted nor faulted is the transmit wait. -/
theorem State.blocked.waits {s : State} (h : s.blocked) (running : s.halted = false) (noFault : s.faults = []) :
    ∃ adj, s.txPhase = .waiting adj := by
  rcases h with halted | fault | waits
  · exact absurd (running.symm.trans halted) nofun
  · exact absurd noFault fault
  · exact waits

theorem State.blocked.not_engineFree {s : State} (h : s.blocked) : s.engineFree = false := by
  refine Bool.eq_false_iff.mpr fun free => ?_
  obtain ⟨running, noFault, idle⟩ := s.engineFree_iff.mp free
  obtain ⟨adj, waits⟩ := h.waits running noFault
  exact absurd (idle.symm.trans waits) nofun

/-- A blocked engine does not move: it has nothing to start and no released wait to resume. -/
theorem State.blocked.engineStep {s : State} (h : s.blocked) : s.engineStep = .done s := by
  have resting : ¬(s.txPhase = .released ∧ s.halted = false ∧ s.faults = []) := by
    rintro ⟨released, running, noFault⟩
    obtain ⟨adj, waits⟩ := h.waits running noFault
    exact absurd (released.symm.trans waits) nofun
  rw [State.engineStep, if_neg (by simp [h.not_engineFree]), if_neg resting]

/-- What a step finds to do makes no bus transaction beside those of `events`: an operation of the external interface, or a
state already reached. -/
def Fetched.silent (events : List SpiEvent) : Fetched → Prop
  | .run i s => engineOnly i = false ∧ s.history = events
  | .done s => s.history = events

theorem step_history_of_silent {s t : State} {events : List SpiEvent} (h : s.fetch.silent events) (e : step s = .next t) :
    t.history = events := by
  unfold step at e
  split at e
  next i u found =>
    rw [found] at h
    obtain ⟨external, reached⟩ := h
    exact (interfaceIssuesNoTransaction i u t external e).trans reached
  next u found =>
    rw [found] at h
    cases e
    exact h

theorem engineOnly_of_canWait {i : Instr} (h : canWait i = true) : engineOnly i = false := by
  cases i
  case submitTx | takePacket | readStats | configure => rfl
  all_goals cases h

/-- A frame of the engine's side is refused or does nothing while the engine is blocked, and a frame that is left runs as an
operation of the external interface (rules R103, R381). -/
theorem State.blocked.present {s : State} (h : s.blocked) (ag : Agent) (f : Frame) :
    (s.present ag f).silent s.history := by
  unfold State.present
  split_ifs with foreign engines
  · exact rfl
  · exact rfl
  · have external : f.internal = false := by simpa [h.not_engineFree] using engines
    split
    next i decoded =>
      split
      · exact ⟨(decode_engineSide f i decoded).trans external, rfl⟩
      · exact rfl
    next => exact rfl

theorem State.blocked.receive {s : State} (h : s.blocked) (x : Input) : (s.receive x).silent s.history := by
  cases x with
  | frame ag f => exact h.present ag f
  | engine =>
    rw [State.receive, h.engineStep]
    exact rfl
  | answer addr v => exact rfl

theorem State.blocked.fetch {s : State} (h : s.blocked) (waiting : ∀ i ∈ s.waiting, canWait i = true) :
    s.fetch.silent s.history := by
  unfold State.fetch
  split
  next i rest taken =>
    obtain ⟨member, -, -⟩ := takeFirst_mem taken
    exact ⟨engineOnly_of_canWait (waiting i member), rfl⟩
  next =>
    split
    next x rest _ =>
      have later : ({ s with inbox := rest } : State).blocked := h
      exact later.receive x
    next =>
      rw [h.engineStep]
      exact rfl

/-- Settles O8: a waiting operation, an input and the engine's own step are each silent while the engine is blocked. -/
theorem blockedEngineIssuesNoTransaction : Obligations.BlockedEngineIssuesNoTransaction := fun _ _ waiting blocked next =>
  step_history_of_silent (State.blocked.fetch blocked waiting) next

/-! ## A pass leaves no model fault (rules R190, R230, R346) -/

@[simp] theorem State.scanning_faults (s : State) : s.scanning.faults = s.faults := rfl

@[simp] theorem State.listening_faults (s : State) : s.listening.faults = s.faults := by
  unfold State.listening
  split <;> simp

@[simp] theorem State.recovered_faults (s : State) (k : BitVec 16) : (s.recovered k).faults = s.faults :=
  State.listening_faults _

@[simp] theorem State.logged_faults (s : State) (code : LogCode) (info : List ℕ) : (s.logged code info).faults = s.faults :=
  rfl

@[simp] theorem State.hopped_faults (s : State) : s.hopped.faults = s.faults := rfl

@[simp] theorem State.singleArmed_faults (s : State) : s.singleArmed.faults = s.faults := rfl

@[simp] theorem State.captured_faults (s : State) : s.captured.faults = s.faults := rfl

@[simp] theorem State.transmitting_faults (s : State) : s.transmitting.faults = s.faults := by
  simp [State.transmitting]

@[simp] theorem State.transmission_faults (s : State) : s.transmission.faults = s.faults := by
  simp only [State.transmission]
  split_ifs
  · rfl
  · exact State.transmitting_faults _
  · exact State.listening_faults _
  · exact State.transmitting_faults _

@[simp] theorem rowOutcome_faults (row : Row) (k : BitVec 16) (s : State) : (rowOutcome row k s).faults = s.faults := by
  cases row <;> simp [rowOutcome]

theorem State.passReady_keyable_iff (s : State) : s.passReady.keyable ↔ s.keyable := by
  simp [State.keyable, s.passReady_frame]

/-- Settles O30: a row that transmits has found a request, so the selected row has its closed form, as an operation and inside the
pass, and no row's outcome has a fault that was not there. -/
theorem evalPassRunsTheSelectedRow : Obligations.EvalPassRunsTheSelectedRow := by
  intro s running booted ended noFault held
  have keyable : rowTransmits (decodeKey s.passKey) = true → s.keyable := fun transmits => by
    have request := outValid_of_rowTransmits s.passReady_relies transmits
    exact held (by simpa [s.passReady_frame] using request)
  have enabled := s.passEnabled_iff.mpr ⟨running, booted, ended, noFault⟩
  refine ⟨_, _, rfl, exec_row _ _ _ fun transmits => s.passReady_keyable_iff.mpr (keyable transmits), ?_, ?_⟩
  · have passes := evalPass_eq s (or_iff_not_imp_right.mpr fun h => keyable (by simpa using h))
    rw [exec_evalPass enabled, passes, State.settle_ok]
  · calc (rowOutcome (decodeKey s.passKey) s.passKey s.passReady).faults
      _ = s.passReady.faults := rowOutcome_faults _ _ _
      _ = [] := by simpa [s.passReady_frame] using noFault

/-! ## Arming sequences (rules R200 to R207) -/

/-- A sequence that does not fault ends its step in the state that it leaves (rule R346). -/
theorem next_settle_of_ok {s t : State} {r : Except FaultName State} (h : r = .ok t) :
    (.next (s.settle r) : Host.Outcome State Fault Refusal) = .next t := by
  rw [h, State.settle_ok]

theorem exec_armScanner (s : State) : exec .armScanner s = .next s.scannerArmed :=
  next_settle_of_ok (armScanner_eq s)

theorem exec_armRxSingle (s : State) : exec .armRxSingle s = .next s.singleArmed :=
  congrArg Host.Outcome.next (armRxSingle_eq s)

theorem exec_armRxCont (s : State) : exec .armRxCont s = .next s.receiverArmed :=
  next_settle_of_ok (armRxCont_eq s)

theorem exec_armListen (s : State) : exec .armListen s = .next s.listening :=
  next_settle_of_ok (armListen_eq s)

theorem exec_forceScan (s : State) : exec .forceScan s = .next s.scanning :=
  next_settle_of_ok (forceScan_eq s)

theorem exec_recover (s : State) :
    exec .recover s = .next ((s.andWrote .irqFlags 0xFF).andWrote .irqFlagsMask 0x00).listening :=
  next_settle_of_ok (recover_eq s)

theorem exec_restart (s : State) : exec .restart s = .next s.restarted := congrArg Host.Outcome.next (restart_eq s)

/-- The transactions of an arming sequence, from the standby to the mode that ends it, with no front set apart. -/
theorem State.armEvents_eq (s : State) (sf : BitVec 4) (k : DioKind) (m : Mode) (old1 old2 : Byte) :
    s.armEvents sf k m old1 old2 =
      s.modeEvents old1 .standby ++ [s.wrote .irqFlags 0xFF] ++ s.frequencyEvents (s.planAt s.ch).uplinkFrequencyHz ++
        s.rateEvents (sf.setWidth 8) s.par.rxCrcFlag ++
        [s.wrote .invertIq (iqValue s.par false), s.wrote .dioMapping1 (dioValue s.par.dioMap k),
          s.wrote .irqFlagsMask (irqMask k)] ++ s.modeEvents old2 m := by
  simp [State.armEvents, State.frontEvents]

/-- The rate takes four of them where the SF is in range (rules R142, R200). -/
theorem State.armEvents_length {s : State} {sf : BitVec 4} (inRange : 7 ≤ sf.toNat ∧ sf.toNat ≤ 12) (k : DioKind) (m : Mode)
    (old1 old2 : Byte) : (s.armEvents sf k m old1 old2).length = 15 := by
  have rate : (s.rateEvents (sf.setWidth 8) s.par.rxCrcFlag).length = 4 := by
    have same : (sf.setWidth 8).toNat = sf.toNat := BitVec.toNat_setWidth_of_le (by decide)
    rw [State.rateEvents, same, if_pos inRange]
    rfl
  simp [State.armEvents_eq, State.modeEvents, State.frequencyEvents, rate]

/-- Settles O32: the closed form with its transactions in one list. -/
theorem armScannerSequence : Obligations.ArmScannerSequence := by
  refine ⟨rfl, fun s => ⟨?_, fun inRange => State.armEvents_length inRange _ _ _ _⟩⟩
  rw [exec_armScanner, State.scannerArmed, State.armEvents_eq]
  rfl

/-- Settles O33: the closed form is the one the statement writes out. -/
theorem armRxSingleSequence : Obligations.ArmRxSingleSequence := ⟨rfl, exec_armRxSingle⟩

/-- Settles O34: the closed form with its transactions in one list. -/
theorem armRxContSequence : Obligations.ArmRxContSequence := by
  refine ⟨rfl, fun s => ?_⟩
  rw [exec_armRxCont, State.receiverArmed, State.armEvents_eq]
  rfl

theorem State.listening_of_scanner {s : State} (h : s.cfgHop = true ∨ s.cfgCad = true) : s.listening = s.scanning :=
  if_pos (by simpa using h)

theorem State.listening_of_receiver {s : State} (hop : s.cfgHop = false) (cad : s.cfgCad = false) :
    s.listening = s.receiverArmed.setState 3 :=
  if_neg (by simp [hop, cad])

/-- The flags and the mask cleared, as one pair of writes (rule R206). -/
theorem State.andWrote_andWrote (s : State) (r r' : Reg) (v v' : Byte) :
    (s.andWrote r v).andWrote r' v' = { s with history := s.history ++ [s.wrote r v, s.wrote r' v'] } := by
  apply State.ext <;> simp

/-- Settles O35: the mode of ARM_LISTEN selects the closed form, FORCE_SCAN's is SCAN's, and RECOVER listens behind its two
writes. -/
theorem listenForceScanRecover : Obligations.ListenForceScanRecover := by
  intro s
  have recovers := exec_recover s
  rw [State.andWrote_andWrote] at recovers
  refine ⟨fun scanner => ?_, fun hop cad => ?_, exec_forceScan s, recovers.trans (exec_armListen _).symm, recovers⟩
  · rw [exec_armListen, State.listening_of_scanner scanner]
    rfl
  · rw [exec_armListen, State.listening_of_receiver hop cad]
    rfl

/-- Settles O36: the closed form is the one the statement writes out. -/
theorem restartSequence : Obligations.RestartSequence := ⟨rfl, exec_restart⟩

end Sys2Proof.Machine
end

section
/-! PROOF. The transitions of the radio state machine (44_fsm_transitions.md): each row as an operation of its own (rules R231
to R268), the resumption of a pass that a wait has suspended (rules R260, R283), and the table of the transitions that a pass
makes (rule R269). -/

namespace Sys2Proof.Machine

open Sys2Proof

/-! ## Rows as operations (rules R231 to R268) -/

/-- A row that does not transmit never fails, whatever request is held. -/
theorem exec_restingRow {row : Row} (resting : rowTransmits row = false) (k : BitVec 16) (s : State) :
    exec (row.instr k) s = .next (rowOutcome row k s).passEnded :=
  exec_row row k s (absurd · (by simp [resting]))

/-- Settles O38: the outcome of each of these rows is the state that it runs in. -/
theorem idleRowsChangeNothing : Obligations.IdleRowsChangeNothing := fun k s =>
  ⟨exec_restingRow (row := .scanIdle) rfl k s, exec_restingRow (row := .cadIdle) rfl k s,
    exec_restingRow (row := .rxHdrseen) rfl k s, exec_restingRow (row := .rxIdle) rfl k s,
    exec_restingRow (row := .txdWait) rfl k s⟩

/-- Settles O39: each row's outcome is the armed state that the statement names. -/
theorem armingRowsWithoutHop : Obligations.ArmingRowsWithoutHop := fun k s =>
  ⟨exec_restingRow (row := .init) rfl k s, exec_restingRow (row := .scanDetect) rfl k s,
    exec_restingRow (row := .cadDetect) rfl k s, exec_restingRow (row := .scanPromote) rfl k s,
    exec_restingRow (row := .scanStay) rfl k s, exec_restingRow (row := .cadNextSf) rfl k s,
    exec_restingRow (row := .cadExhausted) rfl k s⟩

/-- Settles O40: each row's outcome is armed in the state hopped to. -/
theorem hoppingRowsAdvanceAndArm : Obligations.HoppingRowsAdvanceAndArm := fun k s =>
  ⟨exec_restingRow (row := .scanDoneHop) rfl k s, exec_restingRow (row := .scanSofthop) rfl k s,
    exec_restingRow (row := .cadSofthop) rfl k s, exec_restingRow (row := .rxTimeoutHop) rfl k s,
    exec_restingRow (row := .rxSofttmo) rfl k s⟩

/-- Settles O41: five rows have the one recovery as their outcome, and TX_DONE's scans in its place. -/
theorem unexpectedRowsLogAndRecover : Obligations.UnexpectedRowsLogAndRecover := fun k s =>
  ⟨exec_restingRow (row := .scanUnexpected) rfl k s, exec_restingRow (row := .cadUnexpected) rfl k s,
    exec_restingRow (row := .rxUnexpected) rfl k s, exec_restingRow (row := .txNoreq) rfl k s,
    exec_restingRow (row := .default) rfl k s, exec_restingRow (row := .txdUnexpected) rfl k s⟩

/-- A reception that is logged and then counted as seen has been counted and then logged (rules R247, R248). -/
theorem State.countRejected_logEntry (s : State) (code : LogCode) (info : List ℕ) :
    (s.logEntry code info).countRejected =
      ({ s with stats := { s.stats with msgTotal := s.stats.msgTotal + 1 } } : State).logged code info := rfl

/-- Settles O42: the outcome of each row, whose counters do not depend on its log entry and its cleared flags. -/
theorem completionRowsCountAndListen : Obligations.CompletionRowsCountAndListen := by
  intro k s seen
  have rejected := s.countRejected_logEntry
  refine ⟨?_, ?_, exec_restingRow (row := .rxDone) rfl k s, exec_restingRow (row := .rxTimeout) rfl k s,
    exec_restingRow (row := .txdDone) rfl k s, exec_restingRow (row := .txdTimeout) rfl k s⟩
  · rw [← rejected]
    exact exec_restingRow (row := .rxCrcerr) rfl k s
  · rw [← rejected]
    exact exec_restingRow (row := .rxHdrinv) rfl k s

/-- Settles O43: a request that can be keyed can still be keyed in TX, so each of these rows has its closed form. -/
theorem transmitRowsWaitKeyOrDrop : Obligations.TransmitRowsWaitKeyOrDrop := fun k s keyable =>
  ⟨exec_row .txRun k s fun _ => keyable, exec_row .scanTxreq k s fun _ => keyable, exec_row .cadTxreq k s fun _ => keyable,
    exec_row .rxTxreq k s fun _ => keyable⟩

/-! ## The resumption of a suspended pass (rules R260, R280, R283) -/

/-- A released engine that is neither halted nor faulted resumes its pass. -/
theorem State.engineStep_released {s : State} (released : s.txPhase = .released) (running : s.halted = false)
    (noFault : s.faults = []) : s.engineStep = .done s.resume := by
  have suspended : ¬s.engineFree = true := fun free => by
    obtain ⟨-, -, idle⟩ := s.engineFree_iff.mp free
    exact absurd (idle.symm.trans released) nofun
  rw [State.engineStep, if_neg suspended, if_pos ⟨released, running, noFault⟩]

/-- What a resumed pass leaves, for a request that can be keyed. -/
theorem State.resume_eq {s : State} (keyable : s.keyable) : s.resume = (s.setPhase .idle).transmitting.passEnded := by
  rw [State.resume, txKey_eq (s.setPhase .idle) keyable]
  rfl

/-- Settles O48: the engine's step resumes the pass, which keys the request and ends, for no wait lasts any more. -/
theorem releasedPassKeysTransmitter : Obligations.ReleasedPassKeysTransmitter := by
  intro s rest turn released running noFault keyable
  have resumes : ({ s with inbox := rest } : State).engineStep = .done ({ s with inbox := rest } : State).resume :=
    State.engineStep_released released running noFault
  have keys : ({ s with inbox := rest } : State).resume = _ := State.resume_eq keyable
  rw [step, State.fetch_engineTurn turn, resumes, keys]
  rfl

/-! ## The radio state that a sequence leaves -/

/-- The codes of the radio states in which a block listens after ARM_LISTEN: SCAN and RX (rule R203). -/
def listenCodes : List ℕ := [1, 3]

theorem State.listening_radioState_mem (s : State) : s.listening.radioState.toNat ∈ listenCodes := by
  unfold State.listening
  split <;> simp [listenCodes]

@[simp] theorem State.hopped_radioState (s : State) : s.hopped.radioState = s.radioState := rfl

theorem State.transmitting_radioState (s : State) : s.transmitting.radioState = 5 := rfl

/-- A transmission waits in the state that it began in, or ends in TX_DONE, or listens without its request (rules R260,
R281). -/
theorem State.transmission_radioState_mem (s : State) :
    s.transmission.radioState.toNat ∈ s.radioState.toNat :: 5 :: listenCodes := by
  simp only [State.transmission]
  split_ifs
  · exact List.mem_cons_self
  · simp [State.transmitting_radioState]
  · exact List.mem_cons_of_mem _ (List.mem_cons_of_mem _ (State.listening_radioState_mem _))
  · simp [State.transmitting_radioState]

/-! ## The table of transitions (rule R269) -/

/-- The codes of the radio states in whose keys a row stands (rule R101). -/
def rowStarts : Row → List ℕ
  | .init => [0]
  | .scanDetect | .scanPromote | .scanDoneHop | .scanStay | .scanTxreq | .scanSofthop | .scanIdle | .scanUnexpected => [1]
  | .cadDetect | .cadNextSf | .cadExhausted | .cadTxreq | .cadSofthop | .cadIdle | .cadUnexpected => [2]
  | .rxCrcerr | .rxHdrinv | .rxDone | .rxTimeoutHop | .rxTimeout | .rxHdrseen | .rxTxreq | .rxSofttmo | .rxIdle
  | .rxUnexpected => [3]
  | .txRun | .txNoreq => [4]
  | .txdDone | .txdTimeout | .txdWait | .txdUnexpected => [5]
  | .default => [6, 7]

/-- The codes of the radio states in which the pass of a row can end, or be suspended, when it begins in the state with the code
`start` (rules R231 to R268). -/
def rowEnds (start : ℕ) : Row → List ℕ
  | .init | .cadExhausted | .cadSofthop | .txdUnexpected => [1]
  | .scanDetect | .cadDetect => [3]
  | .scanPromote => [2]
  | .scanDoneHop | .scanStay | .scanSofthop | .scanIdle | .cadNextSf | .cadIdle | .rxHdrseen | .rxIdle | .txdWait => [start]
  | .scanTxreq | .cadTxreq | .rxTxreq => 4 :: 5 :: listenCodes
  | .txRun => start :: 5 :: listenCodes
  | .txdTimeout => [0]
  | .scanUnexpected | .cadUnexpected | .rxCrcerr | .rxHdrinv | .rxDone | .rxTimeoutHop | .rxTimeout | .rxSofttmo
  | .rxUnexpected | .txNoreq | .txdDone | .default => listenCodes

/-- The transitions between radio states, as pairs of codes (rule R269). -/
def transitionTable : List (ℕ × ℕ) :=
  [(0, 1), (1, 3), (1, 2), (1, 1), (1, 4), (1, 5), (2, 4), (2, 5), (3, 4), (3, 5), (2, 3), (2, 2), (2, 1), (3, 1), (3, 3),
    (5, 1), (5, 3), (5, 0), (5, 5)]

/-- A key that meets a row's condition has a state field of that row (rule R101). -/
theorem keyS_mem_rowStarts {row : Row} {k : BitVec 16} (wf : (row.instr k).wf = true) : keyS k ∈ rowStarts row := by
  cases row <;> simp only [Row.instr, Instr.wf, Bool.and_eq_true, Bool.or_eq_true, beq_iff_eq, and_assoc] at wf
  case init => simp [rowStarts, wf]
  case default => simpa [rowStarts] using wf
  all_goals simp [rowStarts, wf.1]

/-- The row of a pass is one of the state that the pass begins in (rules R95, R191). -/
theorem State.passKey_rowStarts (s : State) : s.radioState.toNat ∈ rowStarts (decodeKey s.passKey) := by
  obtain ⟨state, -⟩ := s.passSampled.key_reads s.snapshotFlags s.passSampled.tmo (s.passSampled.secondary s.snapshotFlags)
  have started : keyS s.passKey = s.radioState.toNat := state
  exact started ▸ keyS_mem_rowStarts (decodeKey_wf s.passKey)

/-- A pass of a block whose held request can be keyed either can key it or runs a row that does not transmit (rule R195). -/
theorem State.keyable_or_resting {s : State} (request : s.outValid = true → s.keyable) :
    s.keyable ∨ rowTransmits (decodeKey s.passKey) = false := by
  refine or_iff_not_imp_right.mpr fun transmits => request ?_
  simpa [s.passReady_frame] using outValid_of_rowTransmits s.passReady_relies (by simpa using transmits)

/-- The radio state that a row leaves is one of its ends (rules R231 to R268). -/
theorem rowOutcome_radioState_mem (row : Row) (k : BitVec 16) (s : State) :
    (rowOutcome row k s).radioState.toNat ∈ rowEnds s.radioState.toNat row := by
  cases row
  case init | cadExhausted | cadSofthop | txdUnexpected => exact List.mem_singleton_self 1
  case scanDetect | cadDetect => exact List.mem_singleton_self 3
  case scanPromote => exact List.mem_singleton_self 2
  case scanDoneHop | scanStay | scanSofthop | scanIdle | cadNextSf | cadIdle | rxHdrseen | rxIdle | txdWait =>
    simp [rowOutcome, rowEnds]
  case scanTxreq | cadTxreq | rxTxreq | txRun => exact State.transmission_radioState_mem _
  case txdTimeout => simp [rowOutcome, rowEnds]
  case scanUnexpected | cadUnexpected | rxUnexpected | txNoreq | default | rxCrcerr | rxHdrinv | rxDone | rxTimeoutHop |
      rxTimeout | rxSofttmo | txdDone =>
    exact State.listening_radioState_mem _

/-- From a known radio state but TX, the ends of a row are those of the table (rule R269). -/
theorem rowEnds_tabled (row : Row) : ∀ start ∈ rowStarts row, start ≤ 5 → start ≠ 4 →
    ∀ last ∈ rowEnds start row, (start, last) ∈ transitionTable := by
  cases row <;> decide

/-- Settles O44: a legal state in which no wait lasts is known and not TX, and the row that its key selects starts there and
ends where the table says. -/
theorem transitionsAreTheTabledOnes : Obligations.TransitionsAreTheTabledOnes := by
  intro s t legal booted noFault idle next
  obtain ⟨known, suspended, tx, -, awake⟩ := legal.control
  have ended : s.passActive = false := by simpa [idle] using suspended
  have notTx : s.radioState.toNat ≠ 4 := fun h => tx.mp (BitVec.eq_of_toNat_eq h) idle
  have enabled := s.passEnabled_iff.mpr ⟨awake booted, booted, ended, noFault⟩
  rw [exec_evalPass enabled, evalPass_eq s (State.keyable_or_resting legal.store.request)] at next
  cases next
  have ends : (rowOutcome (decodeKey s.passKey) s.passKey s.passReady).radioState.toNat ∈
      rowEnds s.radioState.toNat (decodeKey s.passKey) := by
    simpa [s.passReady_frame] using rowOutcome_radioState_mem (decodeKey s.passKey) s.passKey s.passReady
  exact rowEnds_tabled _ _ s.passKey_rowStarts known notTx _ ends

end Sys2Proof.Machine
end

section
/-! PROOF. The scheduler (45_tx_scheduler.md): a call of WAIT_UNTIL (rules R280 to R282), the release of a wait by the clock's
steps (rule R283), and the two reads that report on it (rules R284, R304, R309). -/

namespace Sys2Proof.Machine

open Sys2Proof

/-! ## The target and the time left (rules R9, R280, R282) -/

theorem State.targetOf_eq (s : State) (target : ℕ) (sf : Byte) :
    s.targetOf target sf =
      (target + s.par.txDelay + (if sf.toNat = 7 then s.par.sf7Extra else 0)) % 2 ^ s.par.timeBits := by
  have seven : sf.toNat = 7 ↔ sf = 7 := BitVec.toNat_inj (y := 7)
  simp only [State.targetOf, seven]

theorem State.dvd_timeLeft_sub (s : State) (target : ℕ) (sf : Byte) :
    2 ^ s.par.timeBits ∣ s.timeLeft target sf - ((s.targetOf target sf : ℤ) - s.clock) := by
  have wrapped : ((2 ^ s.par.timeBits : ℕ) : ℤ) ∣ s.timeLeft target sf - ((s.targetOf target sf : ℤ) - s.clock) :=
    Int.dvd_bmod_sub_self
  rwa [Nat.cast_pow, Nat.cast_ofNat] at wrapped

/-- The time left is a signed number of W bits. -/
theorem State.timeLeft_mem (s : State) (target : ℕ) (sf : Byte) :
    -2 ^ (s.par.timeBits - 1) ≤ s.timeLeft target sf ∧ s.timeLeft target sf < 2 ^ (s.par.timeBits - 1) := by
  have low : -(((2 ^ s.par.timeBits : ℕ) : ℤ) / 2) ≤ s.timeLeft target sf := Int.le_bmod (Nat.two_pow_pos _)
  have high : s.timeLeft target sf < (((2 ^ s.par.timeBits : ℕ) : ℤ) + 1) / 2 := Int.bmod_lt (Nat.two_pow_pos _)
  have halves : ((2 ^ s.par.timeBits : ℕ) : ℤ) = 2 * 2 ^ (s.par.timeBits - 1) := by
    push_cast
    exact (mul_pow_sub_one s.par.timeBitsPos.ne' 2).symm
  omega

/-! ## WAIT_UNTIL (rules R280, R281) -/

theorem State.waitResult_missed {s : State} {target : ℕ} {sf : Byte} (late : s.timeLeft target sf < 0) :
    s.waitResult target sf = .missed := by
  simp [State.waitResult, State.remaining_eq, late]

theorem State.waitResult_onTime {s : State} {target : ℕ} {sf : Byte} (now : s.timeLeft target sf = 0) :
    s.waitResult target sf = .onTime := by
  simp [State.waitResult, State.remaining_eq, now]

theorem State.waitResult_suspended {s : State} {target : ℕ} {sf : Byte} (ahead : 0 < s.timeLeft target sf) :
    s.waitResult target sf = .suspended := by
  simp [State.waitResult, State.remaining_eq, ahead.le.not_gt, ahead.ne']

/-- Settles O45: the sign of the time left is the scheduler's answer, and each answer has one state. -/
theorem waitUntilOutcomes : Obligations.WaitUntilOutcomes := by
  intro s target sf
  have called : exec (.waitUntil target sf) s = execWaitUntil target sf s := rfl
  obtain ⟨low, high⟩ := s.timeLeft_mem target sf
  refine ⟨s.targetOf_eq target sf, s.dvd_timeLeft_sub target sf, low, high, fun late => ?_, fun now => ?_, fun ahead => ?_⟩
  · rw [called, execWaitUntil, State.waitUntil, State.waitResult_missed late]
    rfl
  · rw [called, execWaitUntil, State.waitUntil, State.waitResult_onTime now]
    rfl
  · rw [called, execWaitUntil, State.waitUntil, State.waitResult_suspended ahead]
    rfl

/-! ## The release of a wait (rules R283, R301) -/

/-- What a clock step in range does to the scheduler: the phase after it, and the clock moved. -/
theorem clockAdvance_inRange {s t : State} {d : ℕ} (inRange : 1 ≤ d ∧ d < 2 ^ (s.par.timeBits - 1))
    (next : exec (.clockAdvance d) s = .next t) :
    t.par = s.par ∧ t.clock = s.par.truncTime (s.clock + d) ∧ t.txPhase = s.phaseAfter d := by
  have called : exec (.clockAdvance d) s = execClockAdvance d s := rfl
  rw [called, execClockAdvance, if_pos ((s.tickInRange_iff d).mpr inRange)] at next
  cases next
  exact ⟨rfl, rfl, rfl⟩

theorem State.phaseAfter_waiting {s : State} {adj : ℕ} (waits : s.txPhase = .waiting adj) (d : ℕ) :
    s.phaseAfter d = if s.distanceTo adj ≤ d then .released else .waiting adj := by
  rw [State.phaseAfter_eq, waits]

theorem State.phaseAfter_released {s : State} (released : s.txPhase = .released) (d : ℕ) : s.phaseAfter d = .released := by
  rw [State.phaseAfter_eq, released]

theorem State.distanceTo_lt (s : State) (t : ℕ) : s.distanceTo t < 2 ^ s.par.timeBits := Int.emod_lt_of_pos _ (by positivity)

/-- A clock that has moved by `d` is nearer by `d` to every time, modulo `2^W`. -/
theorem State.distanceTo_of_clock {s t : State} {d : ℕ} (par : t.par = s.par) (clock : t.clock = s.par.truncTime (s.clock + d))
    (adj : ℕ) : t.distanceTo adj = (s.distanceTo adj - d) % 2 ^ s.par.timeBits := by
  unfold State.distanceTo
  rw [par, clock, Params.truncTime]
  push_cast
  rw [Int.sub_emod_emod, Int.emod_sub_emod, sub_sub]

/-- A step that falls short of a time leaves the rest of the distance. -/
theorem State.distanceTo_of_short {s t : State} {d adj : ℕ} (par : t.par = s.par)
    (clock : t.clock = s.par.truncTime (s.clock + d)) (short : d < s.distanceTo adj) :
    t.distanceTo adj = s.distanceTo adj - d := by
  have below := s.distanceTo_lt adj
  rw [State.distanceTo_of_clock par clock]
  exact Int.emod_eq_of_lt (by omega) (by omega)

/-- The clock has moved by `elapsed` in all since `s` began to wait for `adj`, and `t` is the state now: the wait lasts, with the
rest of the distance ahead, until that covers the distance at its beginning (rule R283). -/
structure State.WaitedSince (s t : State) (adj elapsed : ℕ) : Prop where
  par : t.par = s.par
  phase : t.txPhase = if s.distanceTo adj ≤ elapsed then .released else .waiting adj
  ahead : elapsed < s.distanceTo adj → t.distanceTo adj = s.distanceTo adj - elapsed

theorem State.WaitedSince.start {s : State} {adj : ℕ} (waits : s.txPhase = .waiting adj) (ahead : 0 < s.distanceTo adj) :
    s.WaitedSince s adj 0 where
  par := rfl
  phase := waits.trans (if_neg (by simpa using ahead)).symm
  ahead _ := (sub_zero _).symm

/-- A step of the clock adds to the time that has passed, whether it releases the wait, falls short or comes after its end. -/
theorem State.WaitedSince.tick {s t u : State} {adj elapsed d : ℕ} (h : s.WaitedSince t adj elapsed)
    (inRange : 1 ≤ d ∧ d < 2 ^ (s.par.timeBits - 1)) (next : exec (.clockAdvance d) t = .next u) :
    s.WaitedSince u adj (elapsed + d) := by
  obtain ⟨par, clock, phase⟩ := clockAdvance_inRange (h.par ▸ inRange) next
  by_cases done : s.distanceTo adj ≤ elapsed
  · have covered : s.distanceTo adj ≤ (elapsed + d : ℕ) := by omega
    have released : t.txPhase = .released := h.phase.trans (if_pos done)
    refine { par := par.trans h.par, phase := ?_, ahead := fun short => absurd short covered.not_gt }
    rw [phase, State.phaseAfter_released released, if_pos covered]
  · have waits : t.txPhase = .waiting adj := h.phase.trans (if_neg done)
    have rest := h.ahead (not_le.mp done)
    have covers : t.distanceTo adj ≤ d ↔ s.distanceTo adj ≤ (elapsed + d : ℕ) := by omega
    refine { par := par.trans h.par, phase := ?_, ahead := fun short => ?_ }
    · simp only [phase, State.phaseAfter_waiting waits, covers]
    · have left := State.distanceTo_of_short (adj := adj) par clock (by omega)
      omega

/-- Settles O47: by induction on the number of steps, with the distance that each has left. -/
theorem waitIsReleasedAtItsTarget : Obligations.WaitIsReleasedAtItsTarget := by
  intro run d adj waits ahead inRange steps n
  have waited : (run 0).WaitedSince (run n) adj ((List.range n).map d).sum := by
    induction n with
    | zero => exact .start waits ahead
    | succ n ih =>
      rw [List.sum_range_succ]
      exact ih.tick (inRange n) (steps n)
  exact waited.phase

/-! ## READ_STATS and READ_STATE (rules R284, R304, R309) -/

/-- The phase of a wait is coarse while the distance to its target is above the threshold (rule R284). -/
theorem State.waitPhase_eq (s : State) :
    s.waitPhase = match s.txPhase with
      | .waiting adj => if s.par.coarseThreshold < s.distanceTo adj then .coarse else .fine
      | _ => .none := by
  unfold State.waitPhase
  cases s.txPhase with
  | idle => rfl
  | released => rfl
  | waiting adj =>
    have distance : s.par.coarseThreshold < s.par.subTime adj s.clock ↔ s.par.coarseThreshold < s.distanceTo adj := by
      rw [State.distanceTo, ← subTime_eq, Int.ofNat_lt]
    simp only [distance]

/-- Settles O54: the counters are read outside a pass, and the snapshot in every state. -/
theorem readsGiveCountersAndSnapshot : Obligations.ReadsGiveCountersAndSnapshot := by
  refine fun s => ⟨fun ended noFault => ?_, ?_⟩
  · exact congrArg Host.Outcome.next (if_pos (s.statsReady_iff.mpr ⟨ended, noFault⟩))
  · have reads : exec .readState s = .next (s.answer (.snapshot s.snapshot)) := rfl
    rw [reads, State.snapshot, State.waitPhase_eq]
    rfl

end Sys2Proof.Machine
end

section
/-! PROOF. Packet quality (46_packet_and_host.md, rules R311, R312) and the operations of the front end and the host: IRQ_EDGE
(rule R300), SUBMIT_TX (rule R302), TAKE_PACKET (rule R303) and CONFIGURE (rule R305). -/

namespace Sys2Proof.Machine

open Sys2Proof

/-! ## Packet quality (rules R311, R312) -/

/-- The flooring shift of rule R311 is the division that rounds down. -/
theorem packetSnr_floor (r : Byte) : packetSnr .floor r = (r.sshiftRight 2).toInt := by
  rw [BitVec.toInt_sshiftRight, Int.shiftRight_eq_div_pow]
  rfl

/-- Rounding toward zero gives one more than rounding down where the byte is negative and no multiple of 4, and else the same. -/
theorem packetSnr_trunc (r : Byte) :
    packetSnr .trunc r = packetSnr .floor r + if r.toInt < 0 ∧ r.toInt % 4 ≠ 0 then 1 else 0 := by
  have sign : Int.sign 4 = 1 := rfl
  simp only [packetSnr, Int.tdiv_eq_ediv, Int.dvd_iff_emod_eq_zero, sign]
  split_ifs <;> omega

theorem packetSnr_mem (m : SnrRounding) (r : Byte) : -32 ≤ packetSnr m r ∧ packetSnr m r ≤ 31 := by
  have low : -128 ≤ r.toInt := BitVec.le_toInt r
  have high : r.toInt < 128 := BitVec.toInt_lt
  have floor : packetSnr .floor r = r.toInt / 4 := rfl
  cases m with
  | floor => omega
  | trunc =>
    rw [packetSnr_trunc, floor]
    split_ifs <;> omega

/-- Settles O50: the two roundings are compared by the 1 that rounding toward zero adds. -/
theorem packetQualityConversions : Obligations.PacketQualityConversions := by
  refine fun r => ⟨packetSnr_floor r, rfl, fun m => packetSnr_mem m r, ?_, rfl, rfl⟩
  rw [packetSnr_trunc]
  split_ifs with differ
  · exact iff_of_true (by simp) differ
  · exact iff_of_false (by simp) differ

/-! ## IRQ_EDGE (rule R300) -/

theorem State.lineUnwired_iff (s : State) (line : BitVec 2) :
    s.lineUnwired line = true ↔ line.toNat = 3 ∨ line.toNat = 2 ∧ s.par.threeIrqLines = false := by
  have three : line = 3 ↔ line.toNat = 3 := BitVec.toNat_inj.symm
  have two : line = 2 ↔ line.toNat = 2 := BitVec.toNat_inj.symm
  rw [State.lineUnwired, Bool.or_eq_true, Bool.and_eq_true, beq_iff_eq, beq_iff_eq, Bool.not_eq_true', three, two]

/-- Settles O51: whether the line is wired decides between the latch and the refusal. -/
theorem irqEdgeSetsPending : Obligations.IrqEdgeSetsPending := by
  refine fun s line => ⟨fun wired => ?_, fun unwired => ?_⟩
  · have latches : ¬s.lineUnwired line = true := by
      rw [State.lineUnwired_iff]
      rintro (three | ⟨two, absent⟩)
      · omega
      · simp [two, absent] at wired
    exact congrArg Host.Outcome.next (if_neg latches)
  · exact congrArg Host.Outcome.next (if_pos ((s.lineUnwired_iff line).mpr unwired))

/-! ## The host's operations in the host's turn (rules R21, R317) -/

section

variable {s : State}

theorem exec_submitTx_of_hostTurn (turn : s.hostTurn) (r : OutboundRequest) :
    exec (.submitTx r) s = .next (s.submitTx r) :=
  congrArg Host.Outcome.next (if_pos (s.hostReady_iff.mpr turn))

theorem exec_takePacket_of_hostTurn (turn : s.hostTurn) : exec .takePacket s = .next s.takePacket :=
  congrArg Host.Outcome.next (if_pos (s.hostReady_iff.mpr turn))

theorem exec_configure_of_hostTurn (turn : s.hostTurn) (c : CfgRecord) :
    exec (.configure c) s = .next (s.configure c) :=
  congrArg Host.Outcome.next (if_pos (s.hostReady_iff.mpr turn))

end

/-! ## SUBMIT_TX (rule R302) -/

/-- The checks on a request's length and frequency (rule R302). -/
theorem requestValid_iff (par : Params) (r : OutboundRequest) :
    requestValid par r = true ↔
      1 ≤ r.payload.length ∧ r.payload.length ≤ par.maxTxLen.toNat ∧ r.freq.toNat < 1024000000 := by
  simp [requestValid, and_assoc]

/-- Settles O52: a held request stands before the checks, and a request that passes them is staged. -/
theorem submitTxStagesRequest : Obligations.SubmitTxStagesRequest := by
  intro s r turn running
  rw [exec_submitTx_of_hostTurn turn, State.submitTx, if_neg (Bool.eq_false_iff.mp running)]
  refine ⟨fun held => ?_, fun free bad => ?_, fun free nonempty fits inBand => ?_⟩
  · rw [if_pos held]
    rfl
  · have invalid : requestValid s.par r = false := by
      rw [← Bool.not_eq_true, requestValid_iff]
      omega
    rw [if_neg (Bool.eq_false_iff.mp free), if_pos (by simp [invalid])]
    rfl
  · have valid := (requestValid_iff s.par r).mpr ⟨nonempty, fits, inBand⟩
    rw [if_neg (Bool.eq_false_iff.mp free), if_neg (by simp [valid])]
    rfl

/-! ## TAKE_PACKET (rule R303) -/

/-- Settles O53: `inValid` decides between the packet and EMPTY. -/
theorem takePacketHandsOver : Obligations.TakePacketHandsOver := by
  intro s turn running
  rw [exec_takePacket_of_hostTurn turn, State.takePacket, if_neg (Bool.eq_false_iff.mp running)]
  refine ⟨fun full => ?_, fun vacant => ?_⟩
  · rw [if_pos full]
    rfl
  · rw [if_neg (Bool.eq_false_iff.mp vacant)]
    rfl

/-! ## CONFIGURE (rule R305) -/

theorem cfgSfOf_eq (c : CfgRecord) : cfgSfOf c = BitVec.ofNat 4 c.sf.toNat := (BitVec.ofNat_toNat 4 c.sf).symm

/-- A field of 0 or 1 is its lowest bit, which is what a register of one bit keeps of it (log entry 14). -/
theorem getLsbD_zero_of_le_one {b : Byte} (h : b.toNat ≤ 1) : b.getLsbD 0 = (b.toNat == 1) := by
  rw [← BitVec.testBit_toNat, Nat.testBit_zero, Nat.mod_eq_of_lt (Nat.lt_succ_of_le h)]
  rfl

theorem configuredChannel_eq (c : CfgRecord) : configuredChannel c = if c.hop.toNat = 1 then c.ch else 0 := by
  have hops : c.hop = 1 ↔ c.hop.toNat = 1 := BitVec.toNat_inj.symm
  simp only [configuredChannel, hops]

/-- A record fails the checks where one of its fields does (rule R305). -/
theorem configValid_eq_false_iff (n : ℕ) (c : CfgRecord) :
    configValid n c = false ↔ ¬(7 ≤ c.sf.toNat ∧ c.sf.toNat ≤ 12) ∨ 1 < c.hop.toNat ∨ 1 < c.cad.toNat ∨ n ≤ c.ch ∨
      (c.hop.toNat = 1 ∧ n < 3) := by
  rw [← Bool.not_eq_true, configValid_iff]
  omega

/-- Settles O55: the record's checks and the state's decide, and a record that passes fits its registers. -/
theorem configureTakesRecord : Obligations.ConfigureTakesRecord := by
  intro s c turn running bad
  have rejects : s.radioState = stTx ∨ s.radioState = stTxDone ∨ configValid s.numChannels c = false ↔ bad :=
    or_congr_right (or_congr_right (configValid_eq_false_iff _ c))
  rw [exec_configure_of_hostTurn turn, State.configure, if_neg (Bool.eq_false_iff.mp running)]
  refine ⟨fun isBad => ?_, fun good => ?_⟩
  · rw [if_pos (rejects.mpr isBad)]
    rfl
  · have accepted := mt rejects.mp good
    have valid : configValid s.numChannels c = true := by simpa using fun h => accepted (.inr (.inr h))
    obtain ⟨-, hop, cad, -⟩ := (configValid_iff _ c).mp valid
    rw [if_neg accepted, cfgSfOf_eq, cfgHopOf, cfgCadOf, getLsbD_zero_of_le_one hop, getLsbD_zero_of_le_one cad,
      configuredChannel_eq]
    rfl

end Sys2Proof.Machine
end

section
/-! PROOF. Recording a model fault (60_exceptions.md, rule R346): `faults` is a set kept as a list, so a fault that is already
there leaves it alone, and another one is added at its end. -/

namespace Sys2Proof.Machine

open Sys2Proof

variable {s : State} {f g : FaultName}

theorem State.raiseFault_faults_of_mem (recorded : f ∈ s.faults) : (s.raiseFault f).faults = s.faults := by
  rw [raiseFault_faults, if_pos (List.contains_iff_mem.mpr recorded)]

theorem State.raiseFault_faults_of_notMem (fresh : f ∉ s.faults) : (s.raiseFault f).faults = s.faults ++ [f] := by
  rw [raiseFault_faults, if_neg (mt List.contains_iff_mem.mp fresh)]

theorem State.mem_raiseFault_faults : g ∈ (s.raiseFault f).faults ↔ g ∈ s.faults ∨ g = f := by
  by_cases recorded : f ∈ s.faults
  · rw [raiseFault_faults_of_mem recorded]
    exact (or_iff_left_of_imp fun same => same ▸ recorded).symm
  · rw [raiseFault_faults_of_notMem recorded, List.mem_append, List.mem_singleton]

theorem State.nodup_raiseFault_faults (distinct : s.faults.Nodup) : (s.raiseFault f).faults.Nodup := by
  by_cases recorded : f ∈ s.faults
  · rwa [raiseFault_faults_of_mem recorded]
  · rw [raiseFault_faults_of_notMem recorded, ← List.concat_eq_append]
    exact distinct.concat recorded

/-- Settles O13: the update is of `faults` alone, and what it does there depends on whether the fault is new. -/
theorem modelFaultIsOnlyRecorded : Obligations.ModelFaultIsOnlyRecorded := by
  intro s f
  exact ⟨rfl, fun _ => State.mem_raiseFault_faults, State.nodup_raiseFault_faults⟩

end Sys2Proof.Machine
end

section
/-! PROOF. RESET (70_reset_and_hazards.md, rules R370, R371) in the terms of the claims, and the state right after reset as what
RESET with the collaborator's record makes of the block at power-on (rule R373). -/

namespace Sys2Proof.Machine

open Sys2Proof

/-! ## RESET (rules R370, R371) -/

/-- An index register keeps the low `ceil(log2 N)` bits, and at least 1 (rule R25; log entry 14). -/
theorem cutIndex_eq (n i : ℕ) : cutIndex n i = i % 2 ^ max 1 (Nat.clog 2 n) := by
  rw [cutIndex, indexBits_eq]

theorem resetChannel_eq (n : ℕ) (c : CfgRecord) :
    resetChannel n c = if c.hop.toNat = 1 then c.ch % 2 ^ max 1 (Nat.clog 2 n) else 0 := by
  have hops : c.hop = 1 ↔ c.hop.toNat = 1 := BitVec.toNat_inj.symm
  simp only [resetChannel, hops, cutIndex_eq]

/-- A register of one bit keeps the parity of a field (log entry 14). -/
theorem getLsbD_zero_eq_parity (b : Byte) : b.getLsbD 0 = (b.toNat % 2 == 1) := by
  rw [← BitVec.testBit_toNat, Nat.testBit_zero]
  rfl

/-- Settles O57: RESET overwrites the registers one by one, and those that it cuts keep the low bits of their fields. -/
theorem resetGivesResetValues : Obligations.ResetGivesResetValues := by
  intro s c index ch0
  have cut : s.cfgChOf c = index := cutIndex_eq _ _
  have channel : resetChannel s.numChannels c = ch0 := resetChannel_eq _ _
  have overwritten : exec (.reset c) s = .next ((s.applyReset c).answer .none) := rfl
  rw [overwritten, State.applyReset, cut, channel, cfgSfOf_eq, cfgHopOf, cfgCadOf, getLsbD_zero_eq_parity,
    getLsbD_zero_eq_parity]
  rfl

/-! ## The state right after reset (rule R373) -/

/-- The block at power-on, before the RESET(Cfg0) that rule R373 puts first: nothing scheduled, no model fault, no bus event, and
an unspecified clock. RESET overwrites the other registers, so they stand at any legal values. -/
def State.powerOn : State where
  radioState := stInit
  passActive := false
  booted := false
  txPhase := .idle
  sf := 7
  ch := 0
  cfgSF := 7
  cfgHop := false
  cfgCad := false
  cfgCh := 0
  cfg0 := ⟨7, 0, 0, 0⟩
  pending := false
  eventTime := 0
  doneTime := 0
  clock := powerOnParams.truncTime Config.powerOnClock
  lastRssi := 0
  inValid := false
  inbound := ⟨List.replicate 128 0, 0, 0, 0, 7, 0, 0⟩
  outValid := false
  outbound := ⟨[], 0, 0, 7, 0, 0, false, false⟩
  stats := zeroStats powerOnParams.plan.entries.length
  halted := false
  modeShadow := .unknown
  faults := []
  log := []
  history := []
  par := powerOnParams
  inbox := []
  waiting := []
  chipAnswers := []
  draws := 0
  result := .none

theorem State.reset_eq_applyReset_powerOn : State.reset = State.powerOn.applyReset Config.cfg0 := rfl

theorem State.powerOn_legal : State.powerOn.Legal where
  schedule := ⟨nofun, nofun⟩
  control := ⟨by decide, by decide, by decide, by decide, by decide⟩
  sf := ⟨by decide, by decide⟩
  config := ⟨nofun, fun _ => ⟨State.powerOn.numChannels_pos, ⟨by decide, by decide⟩, nofun, fun _ => rfl⟩⟩
  slots := ⟨nofun, Nat.zero_le _, List.length_replicate, List.length_replicate, List.length_replicate, List.length_replicate⟩
  widths := ⟨⟨truncTime_lt _ _, Nat.two_pow_pos _, Nat.two_pow_pos _, Nat.two_pow_pos _, Nat.two_pow_pos _, nofun, nofun⟩,
    Nat.two_pow_pos _, Nat.two_pow_pos _, Nat.two_pow_pos _⟩
  mode := ⟨by decide, by decide, by decide⟩
  faults := ⟨nofun, by decide⟩

/-- Settles O60: the block is legal at power-on, and RESET keeps a legal state legal whatever its record is. -/
theorem resetStateIsLegal : Obligations.ResetStateIsLegal := by
  unfold Obligations.ResetStateIsLegal
  rw [State.reset_eq_applyReset_powerOn]
  exact State.powerOn_legal.applyReset Config.cfg0

end Sys2Proof.Machine
end
